-- ==== Sys2Proof/Word.lean ====
section
/-! DEFINITION. The word types of the OCN-7148 model and their plainest arithmetic. Nothing here depends on a
rule that a test could correct: bit fields, byte orders and conversions stand in Machine/Ops.lean. -/

namespace Sys2Proof

/-- One byte of a ring entry, a buffer, a window register or the one-time memory. -/
abbrev Byte := BitVec 8

/-- A 16-bit quantity: ring indices, parameter keys, host addresses (R327, R399, R346). -/
abbrev Half := BitVec 16

/-- A 32-bit word of the host window (R347) or of the one-time memory (R458). -/
abbrev Word := BitVec 32

/-- A value of the 64-bit time base, 10 ns a count (R11, R336). -/
abbrev TB := BitVec 64

/-- A measured or computed analogue quantity, exact, in the unit its field names (mV, mA, mW, °C, ms …). -/
abbrev Q := Rat

end Sys2Proof
end

