-- ==== Sys2Proof/Syntax.lean ====
section
/-! DEFINITION. The commands of the OCN-7148: one constructor of `Instr` per row of the table of operations and events,
in the table's order, with what the outside supplies to that step as operands. A mailbox command has no operand of its
own: Anvil takes it, header and payload, from the front of Q0 (R391). Analogue operands are in mV, mA, °C and ms. -/

namespace Sys2Proof

/-- The two host targets: master 13 is SPI, master 14 is HBUS (R26). -/
inductive HostBus where
  | spi | hbus
  deriving DecidableEq, Repr

/-- How one SBUS transaction goes on the bus outside the device (R367 to R372): what the other parties on the wires do. -/
inductive SbusEnd where
  /-- every byte acknowledged; the bytes the target sent -/
  | done (read : List Byte)
  /-- an address was not acknowledged: the second one, of the read after the written bytes, or the first -/
  | nackAddress (second : Bool)
  /-- a data byte was not acknowledged, after so many acknowledged -/
  | nackData (acked : Nat)
  /-- another controller won every attempt that the controller made or could make; the bytes acknowledged in the last -/
  | alwaysLost (acked : Nat)
  /-- SCL stayed low for the clock-low timeout, after so many acknowledged bytes, and the bytes read before it -/
  | clockLow (acked : Nat) (read : List Byte)
  /-- SDA low with SCL high before the transfer, and still low after nine pulses -/
  | stuck
  /-- another controller held the bus until the budget ended -/
  | busy
  deriving DecidableEq, Repr

/-- The access types of a fault report (R488). -/
inductive Access where
  | read | write | fetch | push | pop | none
  deriving DecidableEq, Repr

/-- A fault report (table "Fault report", R488); its time is the time base at the push. -/
structure Report where
  checker  : Byte
  master   : BitVec 4 := 0
  access   : Access := .none
  injected : Bool := false
  unitKind : Byte
  unitIdx  : Byte
  addr     : Word := 0
  cause    : Half := 0
  value    : Word := 0
  deriving DecidableEq, Repr

/-- What one switching edge of a phase shows (R88, R91 to R93): times in ns from the turn-off of the conducting switch. -/
structure EdgeSample where
  /-- node slope between 20 % and 80 % of the swing, V/ns -/
  slope : Q
  /-- the phase current reversed within the edge (R100) -/
  curRev : Bool := false
  /-- when the conducting switch's gate was below 1.0 V, if it was by DT_MAX, and when the node had come within 10 % of its rail -/
  gateLow : Option Q := some 0
  nodeAt : Option Q := some 0
  /-- the leg's measured delay to the centre of the node transition, in counts of 156.25 ps -/
  delay : Nat := 0
  deriving DecidableEq, Repr

/-- What one phase's sense and its two bootstrap supplies show of the period just ended. -/
structure PhaseSample where
  /-- sensed period mean and peak-to-peak outside blanking, mA (R139) -/
  mean : Q := 0
  pp : Q := 0
  /-- the lowest current the sense would see in the de-energising interval with the synchronous switch on, mA (R76) -/
  valley : Q := 0
  /-- the front end read beyond ±110 % of full scale for the whole period (R139) -/
  beyond : Bool := false
  /-- BST1 − SW1 and BST2 − SW2, mV (R94, R95) -/
  bst1 : Q := 10000
  bst2 : Q := 10000
  /-- the edges of the period: SW1 rising, SW1 falling, SW2 rising, SW2 falling; those of a leg that is held count for nothing -/
  edges : List EdgeSample := []
  deriving DecidableEq, Repr

/-- What the ring's sense front ends see in one PWM ring period (R105, R106): the period just ended. -/
structure PeriodSample where
  /-- Ride voltage of the Ride sense, mV (R37) -/
  vRide : Q
  /-- port voltage of the phase divider taps, mV (R73) -/
  vPort : Q
  /-- length T of the period just ended, s (R106) -/
  t : Q
  /-- Ride-side current of the channel, mA (R104) -/
  iRide : Q := 0
  /-- the phases of the ring, lowest first, the unpopulated among them -/
  phases : List PhaseSample := []
  /-- TAP_BAT at its own sense, mV (R64) -/
  tapBat : Option Q := none
  deriving DecidableEq, Repr

/-- The fitted plant model of an Annealing run and the margins of the set computed from it (R125, R126, R128). -/
structure Plant where
  l   : Q    -- nH
  rl  : Q    -- µΩ
  c   : Q    -- 0.1 µF
  esr : Q    -- µΩ
  g   : Q    -- µS
  fc  : Q    -- Hz
  pm  : Q    -- 0.1°
  gm  : Q    -- 0.1 dB
  deriving DecidableEq, Repr

/-- A complete coefficient set (R110). -/
structure Coef where
  kp   : Q
  ki   : Q
  kd   : Q
  wp   : Q
  gain : BitVec 6
  deriving DecidableEq, Repr

/-- One point of the two frequency responses of R125: control value to phase current and phase current to node voltage, each
with its real and imaginary part. -/
structure Response where
  iRe : Q
  iIm : Q
  vRe : Q
  vIm : Q
  deriving DecidableEq, Repr

/-- The messages of USB PD that the port's policy acts on (R244 to R266). -/
inductive PdMsg where
  | goodCrc | accept | reject | psRdy | wait | notSupported
  | sourceCaps (objects : List Word) | eprSourceCaps (objects : List Word)
  | request (rdo : Word)
  | prSwap | drSwap | vconnSwap | softReset | getSourceCap | eprKeepAlive | eprKeepAliveAck | frSwap
  | discoverIdentityReq | discoverIdentityAck (vdos : List Word) | otherVdm (structured : Bool)
  | getStatus | getPpsStatus | getSourceCapExtended | eprModeEnter | bist (testData : Bool) | unknown
  deriving DecidableEq, Repr

/-- What a CC pin pair shows (R240): open, an Rp level of a source, or Rd with or without Ra of a sink. -/
inductive CcView where
  | open_ | rpDefault | rp15 | rp30 | rd (ra : Bool)
  deriving DecidableEq, Repr

/-- The three exchanges a port may swap (R261 to R264). -/
inductive SwapKind where
  | pr | dr | vconn
  deriving DecidableEq, Repr

/-- The ways a load port faults (R278). -/
inductive LoadCause where
  | limit | softStart | fastTrip
  deriving DecidableEq, Repr

/-- The charge safety timers (R198). -/
inductive ChargeTimer where
  | preCharge | bulk | absorption | equalise
  deriving DecidableEq, Repr

/-- Why standby is left (R525). -/
inductive StandbyCause where
  | source | usb | floorOrTaproot | fault | command | watchdog
  deriving DecidableEq, Repr

/-- The commands, in the order of the table. -/
inductive Instr where
  -- mailbox commands taken by Anvil from Q0 (chapter 17)
  | echo
  | deviceInfo
  | reset
  | shipMode
  | counterClear
  | sbusTransfer (lost : Nat) (outcome : SbusEnd)
  | paramSet
  | paramGet
  | paramRevert
  | imageStage
  | imageTrial
  | imageBurn
  | imageStatus
  | cBurn
  | lockBurn
  | channelControl
  | anneal
  | loopRead
  | sourceRead
  | batteryRead
  | chargerStatus
  | chargerClear
  | equalise
  | cellRead
  | ovpClear
  | usbRead
  | loadSet
  | loadClear
  | loadRead
  | assaySample (codes : List (BitVec 12)) (ran : Bool)
  | assayStatus
  | telemetryNow
  | thermalRead
  | faultList
  | faultClear
  | attest
  | patchStage
  | patchApply
  | keyRevoke
  | faultInject
  | testDac (codes : List (BitVec 12)) (ran : Bool)
  -- one-time memory
  | otpBurnComplete (ok enrolOk : Bool)
  | burnVccLow (vcc : Q) (wordsDone : Nat)
  -- host register window and buses
  | q0Doorbell (bus : HostBus) (count : BitVec 3)
  | q0WindowWrite (offset : BitVec 10) (data : List Byte)
  | ringWindowRead (bus : HostBus) (ring : Fin 3) (offset : BitVec 10)
  | cidxWrite (bus : HostBus) (ring : Fin 3) (cidx : Half)
  | feValidRearm
  | intPendClear (mask : BitVec 13)
  | intForce (mask : BitVec 13)
  | ringFlagClear (ring : Fin 16) (mask : BitVec 3)
  | hostErrClear
  | tbLoRead (bus : HostBus)
  | registerWrite (bus : HostBus) (addr : Half) (value : Word) (bytes : BitVec 4)
  | hostBusError (bus : HostBus) (addr : Half) (isWrite : Bool)
  | alertResponse (rival : Option (BitVec 7))
  | spiStatusPoll
  | spiFrame (mosi : List Byte)
  | spiFrameEndedEarly (mosi : List Byte) (partialBits : BitVec 3)
  | hbusWrite (pointer : Half) (data : List Byte)
  | hbusPointerSet (pointer : Half)
  | hbusReadFromPointer (pointer : Half) (count : Nat)
  | hbusCurrentPointerRead (count : Nat)
  | hbusProtocolError (pointer : Option Half) (written : List Byte) (readBytes : Nat) (ackCut : Bool)
  | hbusClockLowTimeout (pointer : Option Half) (written : List Byte) (readBytes : Nat)
  | sbusClockLowTimeout (sclReleased : Bool) (pulses : Option Nat)
  -- power, resets, boot, ship mode, reed switch, standby
  | powerOnReset (low : Q)
  | aonPowerLoss (high : Q)
  | vccValid (vcc : Q) (sense : List Q)
  | brownOut (high : Q)
  | resetPin
  | hostReset
  | wardenRelease (crystalValid : Bool)
  | wardenSelfTestComplete (pass : Bool) (straps : BitVec 2)
  | hostTargetRelease
  | anvilReady (vRide : Q)
  | otpReadPass (marginal : List Nat) (vcc : Q)
  | shipModeEntry
  | wakeComparatorArm (port : Fin 8) (high : Q)
  | shipWakeSource (port : Fin 8) (low : Q)
  | reedHoldBegin
  | reedHoldEnd
  | reedHold2s
  | clearingReset
  | clearingResetEnd
  | reedRearm
  | standbyEntry
  | standbyExit (cause : StandbyCause)
  | wakeWindowOpen
  | wakeWindowEnd
  | standbyWatchdogMiss (anvil : Bool)
  -- frames, engines, rings, faults
  | controlFrame (hung : BitVec 12) (bank : List Q)
  | policyFrame (hostReading : Bool)
  | wardenFrame
  | engineFailureDeclared (e : Fin 12)
  | engineRestart (e : Fin 12)
  | engineVerified (e : Fin 12)
  | anvilWatchdogMiss
  | anvilRestart
  | wardenWatchdogExpiry
  | eccError (ringSram : Bool) (index : Fin 16) (master : BitVec 4) (double : Bool) (addr : Word) (access : Access) (syndrome : Word)
  | internalBusError (master : BitVec 4) (access : Access) (addr : Word)
  | crystalLost
  | ringPush (ring : Fin 16) (master : BitVec 4) (entry : List Byte)
  | ringPop (ring : Fin 16) (consumer : BitVec 4) (crcOk : Bool)
  | consumerIndexWrite (ring : Fin 16) (consumer : BitVec 4) (index : Half)
  | stalledPush (ring : Fin 16)
  | holdRelease
  | faultReport (r : Report)
  | wardenTakeReport
  | configRecordTake
  -- the Assay
  | assayTrigger (g : Fin 4) (entry : Fin 60) (after : Nat)
  | assaySetStart (g : Fin 4) (after : Nat)
  | assaySetComplete (g : Fin 4) (codes : List (BitVec 12)) (parityBad : BitVec 4)
  | urgentRequest (g : Fin 4) (hardware : Bool) (master : BitVec 4) (inputs : List (Fin 48)) (port : Option (Fin 4)) (late : Bool)
  | assaySetRestart (g : Fin 4)
  | backgroundCalibration (c : Fin 16) (ref0 ref1 ref2 : BitVec 12)
  | converterCheck (g : Fin 4) (codes : List (List (BitVec 12)))
  | pathCheck (g : Fin 4) (code : BitVec 12)
  -- phases and loops
  | ringPeriodBoundary (ch : Fin 16) (sample : PeriodSample)
  | peakLimit (phase : Fin 28) (at_ : Half) (still : Bool)
  | hiccup (ch : Fin 16)
  | hiccupOffTimeEnd (ch : Fin 16) (measured : Q)
  | softStartComplete (ch : Fin 16)
  | retryResetInterval (ch : Fin 16)
  | phaseFailure (phase : Fin 28) (cause : BitVec 3)
  | probationComplete (phase : Fin 28)
  | profileNotReached (phase : Fin 28) (edge : Fin 4)
  | vdrvUndervoltage (lowest : Q)
  | vdrvRecovery
  | bootstrapUndervoltage (phase : Fin 28) (rideLeg : Bool)
  -- the Ride and Taproot
  | rideOvervoltage (peak : Q)
  | rideOvervoltageRelease
  | tierChange (tier : Fin 5)
  | loadShed (cls : Fin 8)
  | shedRestore (cls : Fin 8)
  | targetReached
  | taprootEngage (vRide vBat : Q)
  | taprootColdRampEnd
  | taprootBlock
  | taprootRelease (vBat : Q)
  | taprootOvercurrent (vBat : Q)
  | taprootRearm
  | taprootUndervoltage (below : Bool)
  | sourceWithdrawal (usb : Bool) (port : Fin 8) (v : Q)
  | handoverComplete (usb : Bool) (port : Fin 8) (present : Bool)
  -- source ports
  | inputPresent (port : Fin 8)
  | inputLost (port : Fin 8)
  | debounceComplete (port : Fin 8)
  | qualificationComplete (port : Fin 8)
  | qualificationBlockEnd (port : Fin 8)
  | classificationObservationEnd (port : Fin 8)
  | classDecided (port : Fin 8)
  | rampingComplete (usb : Bool) (port : Fin 8)
  | sourceOvervoltageStop (port : Fin 8) (peak : Q)
  | sourceOvervoltageRelease (port : Fin 8)
  | perturbObserveStep (port : Fin 8)
  | swellEvaluation (port : Fin 8)
  | globalScan (port : Fin 8)
  | scanEnd (port : Fin 8)
  | idleEntry (port : Fin 8)
  | idleTrial (port : Fin 8) (vPort : Q)
  | idleTrialResult (port : Fin 8)
  | waveCycleEnd (port : Fin 8)
  | wavePause (port : Fin 8)
  | waveResume (port : Fin 8)
  | swellProfileExpiry (port : Fin 8)
  | transitionTimerExpiry (ch : Fin 16)
  -- Annealing
  | annealingGrant (ch : Fin 16)
  | annealingDeferred (ch : Fin 16)
  | annealingInjectionStart (ch : Fin 16)
  | annealingInjectionEnd (ch : Fin 16)
  | annealingFitComplete (ch : Fin 16) (responses : List Response)
  | annealingVerificationEnd (ch : Fin 16)
  -- battery ports
  | batteryQualificationEnd (port : Fin 4) (selfTest : Bool)
  | qualificationRetry (port : Fin 4)
  | chargeTimerExpiry (port : Fin 4) (timer : ChargeTimer)
  | pulseEnd (port : Fin 4)
  | restEnd (port : Fin 4)
  | restDisturbed (port : Fin 4)
  | gladeFitComplete (port : Fin 4)
  | probeRest (port : Fin 4)
  | chargePauseTimeout (port : Fin 4)
  | equaliseDue (port : Fin 4)
  | dischargeCutoff (port : Fin 4)
  | dischargeRestore (port : Fin 4)
  | reserveRelease (port : Fin 4)
  | primaryChargeCurrent (port : Fin 4) (peak : Q)
  -- cells
  | cellOvpTrip (port : Fin 4) (segment : Fin 16)
  | ovpClearable (port : Fin 4)
  | openTapTest (port : Fin 4) (moved : BitVec 16)
  | tapReversed (port : Fin 4) (segment : Fin 16)
  | balanceSlot (port : Fin 4)
  | balanceWriteTimeout (port : Fin 4)
  -- USB ports
  | ccChange (port : Fin 4) (view : CcView)
  | typecDebounceExpiry (port : Fin 4) (vbusSafe5V vconnInOk : Bool)
  | drpToggle (port : Fin 4)
  | tryTimerExpiry (port : Fin 4) (partnerSeen vconnInOk : Bool)
  | errorRecoveryEnd (port : Fin 4)
  | sinkWaitCapTimeout (port : Fin 4)
  | pdMessageReceived (port : Fin 4) (sopPrime : Bool) (id : BitVec 3) (msg : PdMsg) (entry : List Byte)
  | pdTransmit (port : Fin 4) (receiving : Bool) (goodCrc : Bool)
  | pdRetry (port : Fin 4) (goodCrc : Bool)
  | sourceCapabilities (port : Fin 4) (objects : List Word) (epr : Bool)
  | sinkPsRdy (port : Fin 4) (vbus : Q)
  | sourceRequest (port : Fin 4) (rdo : Word)
  | sourceTransitionStart (port : Fin 4)
  | ppsRequestPeriod (port : Fin 4)
  | eprKeepalive (port : Fin 4)
  | ppsTimeout (port : Fin 4)
  | senderResponseTimeout (port : Fin 4)
  | prSwap (port : Fin 4)
  | prSwapInitiate (port : Fin 4)
  | drSwap (port : Fin 4)
  | vconnSwap (port : Fin 4) (vconnInOk : Bool)
  | softResetReceived (port : Fin 4) (sopPrime : Bool)
  | discoverIdentity (port : Fin 4) (towardsCable : Bool) (cable : Option (Fin 4))
  | vdmReceived (port : Fin 4) (structured : Bool)
  | hardResetReceived (port : Fin 4) (sent : Bool) (partnerDrivesVbus : Bool)
  | srcRecoverEnd (port : Fin 4) (vbus : Q) (vconnInOk : Bool)
  | hardResetVbusTimeout (port : Fin 4)
  | vbusDischargeDone (port : Fin 4)
  | sinkOvervoltage (port : Fin 4) (peak : Q)
  | vconnOvercurrent (port : Fin 4)
  -- load ports
  | loadSoftStartComplete (port : Fin 32) (vOut : Q)
  | loadSoftStartTimeout (port : Fin 32) (peak : Q)
  | loadLimitingEntry (port : Fin 32) (i : Q)
  | loadLimitingExit (port : Fin 32) (i : Q)
  | loadFaultTimerExpiry (port : Fin 32) (peak : Q)
  | loadFastTrip (port : Fin 32) (peak : Q)
  | loadRetryOffTimeEnd (port : Fin 32)
  | loadRetryResetInterval (port : Fin 32)
  | rideBelowLoadMinimum (v : Q)
  | rideAboveLoadRelease (v : Q)
  -- thermal
  | temperatureEvaluation
  | thermalComparatorTrip (sensor : Fin 12)
  | shutdownRelease
  | sensorRestored (sensor : Fin 20)
  -- telemetry, and the events listed last in the table
  | telemetryPeriod
  | snapshotSwapDeferred
  | resetNRelease
  | tSwapSourceStartExpiry (port : Fin 4) (vbus : Q)
  | tSinkTxExpiry (port : Fin 4)
  deriving DecidableEq, Repr

end Sys2Proof
end

