-- ==== Sys2Proof/Machine/State.lean ====
section
/-! DEFINITION. The state of the OCN-7148 as plain data: every register, ring, counter, mode and pin the spec names,
and the queue of waiting commands. Analogue values are exact rationals, in mV, mA, mW, mΩ, °C or ms as their docstrings
say. Entries '[n]' in a docstring name the assumption log's row that fixes a reset value the spec does not give. -/

namespace Sys2Proof.Machine

/-- The ways a step may stop with a fault. No meaning of this model raises one: the spec gives every command an effect
or the device ignores it. Safe: a run never ends by it. -/
inductive Fault where
  /-- reserved for an access outside an addressed buffer; raised by nobody; safe -/
  | outsideBuffer (addr : Nat)
  deriving DecidableEq, Repr

/-- The ways a step may refuse a command. -/
inductive Refusal where
  /-- a command without a meaning yet, by its mnemonic; raised by arms of the dispatch only; safe -/
  | notModelled (mnemonic : String)
  deriving DecidableEq, Repr

/-- A 16-bit counter that saturates and then sets its flag (R172, R342). -/
structure Cnt where
  n   : Half := 0
  sat : Bool := false
  deriving DecidableEq, Repr

/-- A quantity measured through the Assay: the samples of the present control frame, the last frame's mean, and the largest magnitude
that a sample of it had (R30, R196). -/
structure Acc where
  sum  : Q := 0
  n    : Nat := 0
  mean : Q := 0
  last : Q := 0
  min  : Option Q := none
  max  : Option Q := none
  peak : Q := 0
  deriving DecidableEq, Repr

/-- An addressed buffer: bytes at rising addresses, no byte of 0 listed; an unlisted address reads 0 (log 5). -/
abbrev Mem := List Host.Cell

/-! ### Rings (chapter 13) -/

/-- One ring entry with whether its ring CRC matches (R331). -/
structure Entry where
  bytes : List Byte
  crcOk : Bool := true
  deriving DecidableEq, Repr

/-- A ring: producer index, consumer indices by consumer, the live entries from C_eff to P, and its control block's
other fields (R327, R376). Consumers are master IDs; on Q15 they are the PHY's port numbers. -/
structure Ring where
  p       : Half := 0
  cons    : List (BitVec 4 × Half) := []
  entries : List Entry := []
  cnt     : Cnt := {}
  overrun : List (BitVec 4 × Cnt) := []
  overRep : List (BitVec 4) := []
  crcErr  : Bool := false
  refused : Bool := false
  winErr  : Bool := false
  crcIdx  : Half := 0
  checked : List Half := []
  stalled : List (List Byte) := []
  deriving DecidableEq, Repr

/-! ### Power, reset and the always-on domain (chapters 1, 20) -/

/-- The device states of the table "Device states" (R21), and a part without AON power. -/
inductive Dev where
  | unpowered | ship | clearing | boot | running | standby | deviceStop
  deriving DecidableEq, Repr

/-- Where the boot of R511 stands. -/
inductive Boot where
  /-- VCC awaited (before step 2) -/
  | awaitVcc
  /-- step 3 done: wires sent, PROT running -/
  | prot
  /-- step 4 done: Warden runs its self-test -/
  | selfTest
  /-- step 6 done: Anvil released -/
  | anvil
  /-- step 7 done: read pass complete -/
  | passed
  /-- step 9 done, or Anvil restarted and ready again -/
  | done
  /-- Warden failed its self-test (R512) -/
  | failed
  deriving DecidableEq, Repr

/-- The reed switch (R521): armed, in a hold (2 s reached; a wake came in it), or awaiting 1 s high before it arms again. -/
inductive Reed where
  | idle | holding (two woke : Bool) | waitRelease
  deriving DecidableEq, Repr

/-- The AON domain (R20 table, R200, R381, R508, R517, R519, R521). -/
structure Aon where
  powered    : Bool := true
  cause      : Byte := 1
  sapOut     : Bool := true
  shipLatch  : Bool := false
  shipSrcEn  : Byte := 0
  shipReed   : Bool := false
  shipFlag0  : Bool := false
  wakeArmed  : Byte := 0
  reed       : Reed := .idle
  reed2sDue  : Bool := false
  dormant    : BitVec 4 := 0
  arm        : Bool := false
  /-- shadow words, and which of them the host has written: another shows the C-region's value (R13, R381) -/
  shadow     : Vector Word 6 := .replicate 6 0
  shHeld     : BitVec 6 := 0
  shSelect   : BitVec 6 := 0
  resetNLow  : Bool := false
  deriving DecidableEq, Repr

/-- What feeds the internal VDRV regulator: nothing while it is off, the Ride, or in its dead-Ride mode the highest port through
Sapling's selector (R94, R541). -/
inductive VdrvFeed where
  | off | ride | selector
  deriving DecidableEq, Repr

/-- Clocks and supplies (R94, R333, R334, R338). -/
structure Clocks where
  vcc        : Bool := false
  pll        : Bool := false
  crystal    : Bool := false
  crystalLost : Bool := false
  switchDue  : Bool := false
  spread     : Q := 0
  vdrvOk     : Bool := true
  vdrvLow    : Bool := false
  /-- the internal VDRV regulator's feed, and the port that Sapling's selector uses: source ports 0 to 7, then battery ports (R540) -/
  feed       : VdrvFeed := .off
  selPort    : Option (Fin 12) := none
  deriving DecidableEq, Repr

/-! ### C-region wires (chapter 18, R463) -/

/-- The values on the C-region wires now (R381 WIRE words and the two security wires), and the phase population of R532. -/
structure Wires where
  words     : Vector Word 6 := .replicate 6 0
  debugLock : Bool := false
  secure    : Bool := false
  shadowActive : Bool := false
  /-- battery ports disabled by a marginal chemistry or CPS field (R464) -/
  forcedOff : BitVec 4 := 0
  deriving DecidableEq, Repr

/-! ### The Ride and Taproot (chapter 2) -/

/-- Taproot (R63): the last state is 'off or inhibited' of the snapshot (R62, R22). -/
inductive TapState where
  | armed | fast | cold | tripped | off
  deriving DecidableEq, Repr

structure Taproot where
  state    : TapState := .off
  /-- the ideal diode is active, and blocking (R64, R66) -/
  active   : Bool := false
  blocking : Bool := false
  /-- TAP_BAT below TAP_UV and not yet above TAP_UV + 200 mV (R67) -/
  uvHold   : Bool := false
  /-- the last TAP_BAT voltage seen, mV -/
  vBat     : Q := 0
  trips    : Cnt := {}
  deriving DecidableEq, Repr

/-- Thresholds written to the tier law blocks, mV (R38, R39). -/
structure Tiers where
  vT  : Q
  vEM : Q
  vUN : Q
  vFL : Q
  vFM : Q
  vOV : Q
  /-- one curtail step d × V_T and the charge span w_c × V_T -/
  step : Q
  span : Q
  deriving DecidableEq, Repr

structure Ride where
  /-- the Ride voltage of the Ride sense, mV, and its minimum in the present control frame (R37, R203) -/
  v        : Q := 0
  vMin     : Option Q := none
  /-- the last frame's minimum and mean -/
  frameMin : Q := 0
  meas     : Acc := {}
  /-- present target and final target, mV (R41); thresholds last written -/
  present  : Q := 24000
  target   : Q := 24000
  th       : Tiers := ⟨24000, 24720, 23520, 20400, 18000, 25920, 60, 240⟩
  /-- delivery stop of R49 -/
  ovStop   : Bool := false
  ovCnt    : Cnt := {}
  /-- reported tier, 0 Emergent to 4 below Floor minimum (R50, R386); [12] -/
  tier     : Fin 5 := 1
  /-- shed classes (R51) and load ports released under R61 -/
  shed     : Byte := 0
  released : Bool := false
  /-- the Ride has been below 4.5 V and not yet above 5.0 V (R271); [14] -/
  low      : Bool := true
  deriving DecidableEq, Repr

/-! ### Channels and phases (chapters 3, 4, 5) -/

/-- The protection stops of R18, with the direction each inhibits. -/
inductive Stop where
  | cellOvp | tapFault | thermalHw | thermalWarden | ntc (n : Fin 8) | sourceOv | sinkOv | primaryFlag | latch
  | hold | wardenPort | deviceStop | reset | lastPhase
  deriving DecidableEq, Repr

/-- The four switches of a phase (table "Phase balls"). -/
inductive Gate where
  | hg1 | lg1 | hg2 | lg2
  deriving DecidableEq, Repr

inductive PwmMode where
  | portLeg | fourSwitch | rideLeg
  deriving DecidableEq, Repr

/-- The states of the table "Hiccup states" (R135). -/
inductive Hic where
  | switching | off | softStart | latched
  deriving DecidableEq, Repr

/-- The states of the table "Annealing states". -/
inductive AnnState where
  | idle | waiting | preparing | injecting | fitting | applying | verifying
  deriving DecidableEq, Repr

/-- Annealing triggers (R121), coded as the events give them ([8] for the code numbers). -/
inductive AnnTrigger where
  | firstStart | keyChange | phaseSet | command
  deriving DecidableEq, Repr

/-- Annealing of a channel (R119 to R129). Times are of TB. -/
structure Anneal where
  state    : AnnState := .idle
  trigger  : AnnTrigger := .firstStart
  /-- when the trigger fell, its last deferral was told, a condition of R122 last failed, and the state in progress began -/
  trigTb   : TB := 0
  deferTb  : TB := 0
  breakTb  : TB := 0
  stateTb  : TB := 0
  /-- amplitude of the next attempt, % of full duty (R119, R124) -/
  amp      : Q := 2
  retried  : Bool := false
  /-- the generator of R123, the chips injected, and the perturbation added to the control value, as a fraction of full duty -/
  lfsr     : BitVec 10 := 0
  chips    : Nat := 0
  pert     : Q := 0
  /-- largest 1 ms peak-to-peak of u in preparation and in verification, mA (R127), and the window running: its length in s and
  its extremes -/
  prepPp   : Q := 0
  verPp    : Q := 0
  winT     : Q := 0
  winLo    : Option Q := none
  winHi    : Option Q := none
  /-- the node's voltage in the present frame, and its first frame mean of the run, mV (R124) -/
  node     : Acc := {}
  node0    : Option Q := none
  /-- set, with its model, to restore on a failed verification -/
  prev     : Option (Coef × Plant) := none
  prevOrigin : Fin 3 := 0
  /-- model of the set in Applying and Verifying -/
  cand     : Option Plant := none
  /-- model and completion time of the last completed run of this boot -/
  model    : Option Plant := none
  done     : TB := 0
  deriving DecidableEq, Repr

/-- The transition timer of a limited reference (R116, R117). -/
structure TransTimer where
  running   : Bool := false
  suspended : Bool := false
  /-- time set at the last start, ms -/
  limit     : Q := 0
  settled   : Nat := 0
  deriving DecidableEq, Repr

/-- What a channel's engine last wrote to its hardware besides references and coefficients (R16, R17, R30): the clamps of R17
step 2 towards positive and negative output and the peak limits of each phase, mA; N_HIC, retry count and soft-start time (ms);
curtail order; sense blanking and dead times, ns; edge profiles. -/
structure Lims where
  pos     : Q := 0
  neg     : Q := 0
  pkFwd   : Q := 8000
  pkRev   : Q := 8000
  nHic    : Nat := 64
  nRet    : Nat := 8
  tSs     : Q := 10
  order   : Nat := 0
  blank   : Q := 60
  dtMin   : Q := 10
  dtMax   : Q := 60
  profiles : Half := 0x6666
  deriving DecidableEq, Repr

/-- The inner loop of a channel's phases (R101): its crossover, its amplifier's zero and pole, Hz, and the feed-forward voltage
that scales the modulator's gain, mV. -/
structure Inner where
  fci  : Q := 0
  zero : Q := 0
  pole : Q := 0
  ff   : Q := 0
  deriving DecidableEq, Repr

structure Chan where
  /-- switching commanded by the owner and not prevented; started at least once since the boot -/
  enabled  : Bool := false
  started  : Bool := false
  offByCmd : Bool := false
  /-- an off command waits for the ring's next boundary (R430) -/
  offDue   : Bool := false
  stops    : List Stop := []
  mode     : PwmMode := .fourSwitch
  /-- switching frequency in force, Hz, the one written and not yet in force (R80), and the period in counts (R78) -/
  fsw      : Q := 250000
  fswPend  : Option Q := none
  period   : Nat := 25600
  /-- the ring counter where an event last found it, in counts of 156.25 ps from the boundary (R78) -/
  counter  : Half := 0
  /-- the dither generator, none while it stands at its seed, dither in force as a fraction of P, and periods left before the
  next draw (R84) -/
  lfsr     : Option (BitVec 15) := none
  delta    : Q := 0
  deltaLeft : Nat := 0
  ditherOff : Bool := false
  refresh  : Nat := 0
  rhoHist  : List Q := []
  /-- interleave offset of each phase of the ring, in counts, lowest gang phase first (R81) -/
  offsets  : List Nat := []
  revCount : Nat := 0
  dutyClamp : Bool := false
  /-- references and their limiter (R114) -/
  refTarget : Q := 0
  refRate   : Q := 5
  refOut    : Q := 0
  trans    : TransTimer := {}
  /-- compensator (R106): active set, committed set waiting, and its variables, mA -/
  coef     : Coef := ⟨0, 0, 0, 0, 0⟩
  coefPend : Option Coef := none
  origin   : Fin 3 := 0
  u        : Q := 0
  uOut     : Q := 0
  integ    : Q := 0
  ePrev    : Q := 0
  fresh    : Bool := true
  iFilt    : Q := 0
  /-- the model and margins of the set last committed (R112, R128), and for a USB channel the role it was computed for (R126) -/
  plant    : Plant := ⟨0, 0, 0, 0, 0, 0, 0, 0⟩
  srcRole  : Bool := false
  inner    : Inner := {}
  /-- what the engine last wrote, in force; and what it wrote while a protection stop stood, which takes effect when the last
  stop is released (R18) -/
  lim      : Lims := {}
  stored   : Option Lims := none
  /-- fraction of the written clamps in force while a ramp runs (R135, R153, R320) -/
  ramp     : Q := 1
  /-- time of the ramp that runs, ms -/
  rampTime : Q := 10
  restHold : Bool := false
  restDue  : Bool := false
  kappa    : Q := 1
  theta    : Q := 1
  curtailed : Bool := false
  /-- hiccup (R134 to R138) -/
  hic      : Hic := .switching
  limCount : Nat := 0
  retry    : Nat := 0
  /-- T_HIC is over, the latch cleared or the channel turned on: Soft-start waits for the last stop (R135, R144, R430) -/
  waits    : Bool := false
  hicCnt   : Cnt := {}
  /-- ring periods since the boot (R289) -/
  periods  : Nat := 0
  /-- counts of the present control frame: ring periods, periods in which the charge clamp or any clamp bound, whether
  the peak limit acted, whether the channel switched throughout (R141, R189) -/
  fPeriods : Nat := 0
  fBound   : Nat := 0
  fPeak    : Bool := false
  fBroken  : Bool := false
  ann      : Anneal := {}
  deriving DecidableEq, Repr

structure Phase where
  populated : Bool := true
  healthy   : Bool := true
  /-- counts of the checks of R139 and R141 -/
  reach     : Nat := 0
  ripple    : Nat := 0
  openIn    : Nat := 0
  gate      : Nat := 0
  delivery  : Nat := 0
  agreement : Nat := 0
  probation : Nat := 0
  rejoin    : Bool := false
  /-- profile-not-reached flag of each edge, and the edges in a row that a pinned code has missed its slope (R90) -/
  notReached : BitVec 4 := 0
  pinned    : Vector Nat 4 := .replicate 4 0
  /-- plateau codes of the four edges, and the edges of each leg since it started switching, counted to 8 (R88); [9] -/
  codes     : Vector Byte 4 := .replicate 4 128
  edges1    : Nat := 0
  edges2    : Nat := 0
  /-- the drive applied in the three parts of the last edge of each kind (R87) -/
  drive     : Vector (Byte × Byte × Byte) 4 := .replicate 4 (255, 255, 255)
  /-- the commanded edges of the period, in counts from the phase's start (R78, R91), and D1 and D2 applied (R75, R552) -/
  cmds      : Vector Half 4 := .replicate 4 0
  d1        : Q := 0
  d2        : Q := 0
  /-- dead times of each leg in the frame, ns (R92), and the edges of the last period whose complementary switch stayed off (R93) -/
  dead1     : Acc := {}
  dead2     : Acc := {}
  skipped   : BitVec 4 := 0
  /-- switches now commanded on, the refresh placed in this period, and whether its conduction is discontinuous (R76, R95, R130) -/
  gates     : List Gate := []
  refreshAt : Option Half := none
  dcm       : Bool := false
  /-- inductor-current reference of the inner loop, mA (R107) -/
  iRef      : Q := 0
  bstPortUv : Bool := false
  bstRideUv : Bool := false
  peakNow   : Bool := false
  offset    : Q := 0
  mean      : Q := 0
  meas      : Acc := {}
  deriving DecidableEq, Repr

/-! ### Source ports (chapter 6) -/

/-- The states of the table "Source power-path states". -/
inductive Path where
  | absent | debounce | qualifying | ramping | delivering | withdrawing
  deriving DecidableEq, Repr

/-- Tracking states, coded as the table "Source telemetry". -/
inductive Track where
  | none | tracking | swell | curtailed | inputLimited | scan | idle | waveRunning | wavePaused | dc
  deriving DecidableEq, Repr

/-- A swell profile (R163). -/
structure Swell where
  tSw   : Q        -- s
  a     : Q
  phase : Word := 0
  rate  : Q := 0
  prof  : Vector Q 32 := .replicate 32 0
  volt  : Vector Q 32 := .replicate 32 0
  lowA  : Nat := 0
  skipped : Nat := 0
  deriving DecidableEq, Repr

/-- The 250 ms of a qualification (R151): when they began, frame means of V_PORT (mV) and of the phase sense (mA), and the first
check broken so far. -/
structure QualRec where
  tb  : Option TB := none
  v   : Acc := {}
  i   : Acc := {}
  bad : Option (Fin 5) := none
  deriving DecidableEq, Repr

/-- The parts of the classification sweep (table "Classification sweep"): steps 1, 3 and 5. -/
inductive SweepStage where
  | observe | down | back
  deriving DecidableEq, Repr

/-- What the sweep records (R156, R157): when the observation began; a peak of V_PORT, whether V_PORT has fallen by more than 20 % from
it, and how often it came back; the points (V_PORT, I_PORT), first to last; the greatest deviation from V_OC; whether the clamp bound
near V_OC, and whether the sweep stopped early. -/
structure SweepRec where
  stage   : SweepStage := .observe
  tb      : TB := 0
  peak    : Q := 0
  fell    : Bool := false
  cycles  : Nat := 0
  pts     : List (Q × Q) := []
  maxDev  : Q := 0
  bound   : Bool := false
  stopped : Bool := false
  deriving DecidableEq, Repr

structure Src where
  path     : Path := .absent
  present  : Bool := false
  blocked  : Bool := false
  handover : Bool := false
  /-- class found by the sweep in this boot, 0 none (R156) -/
  found    : Fin 5 := 0
  sweeping : Bool := false
  qual     : QualRec := {}
  swp      : SweepRec := {}
  /-- when the power-path state, Tracking or Swell-locked, and Idle or its last trial began, when the last scan started, when a lock was
  put by, when the port was blocked and when the wave cycle began -/
  pathTb   : TB := 0
  trackTb  : TB := 0
  idleTb   : TB := 0
  scanTb   : TB := 0
  keptTb   : TB := 0
  blockTb  : TB := 0
  cycleTb  : TB := 0
  track    : Track := .none
  prev     : Track := .none
  v        : Acc := {}
  i        : Acc := {}
  /-- port power of each record, mW, and (power, V_PORT, I_PORT) of the last 64 frames, newest first (R160, R171) -/
  pw       : Acc := {}
  hist     : List (Q × Q × Q) := []
  /-- frames of the present interval T_PO, and the second-half means (V_PORT, I_PORT) of the interval before (R160, R168) -/
  poCount  : Nat := 0
  half     : Option (Q × Q) := none
  vIn      : Q := 0
  vOc      : Q := 0
  vOp      : Q := 0
  dirUp    : Bool := true
  pLast    : Q := 0
  phLast   : Q := 0
  ratio    : Option Q := none
  kCorr    : Q := 1
  dcFloor  : Q := 0
  bindI    : Bool := false
  bindP    : Bool := false
  atBound  : Bool := false
  ovStop   : Bool := false
  sweepCut : Bool := false
  calm     : Nat := 0
  qualFails : Nat := 0
  undet    : Nat := 0
  /-- scanning: V_IN_REF and power before the scan, frames at the present point, and the points taken (V_IN_REF, power), first to
  last (R165) -/
  scanBack : Q := 0
  scanPow  : Q := 0
  scanHold : Nat := 0
  scanPts  : List (Q × Q) := []
  /-- an Idle trial runs; when it held its point, and the powers of its last 0.5 s (R166); frames in a row below P_IDLE (R159) -/
  trial    : Bool := false
  trialTb  : Option TB := none
  trialP   : Acc := {}
  dim      : Nat := 0
  /-- swell window (R162, R164): mean power in mW, mean V_IN_REF in mV and mark of each block of 256 frames, newest first -/
  window   : List (Q × Q × Bool) := []
  block    : Acc := {}
  blockV   : Acc := {}
  blockMark : Bool := false
  /-- visit of the present bin (R163): mean power, mean V_IN_REF, and the bin means of the running period -/
  binP     : Acc := {}
  binV     : Acc := {}
  visitP   : List Q := []
  /-- a frame of the visit was outside Swell-locked; samples since the last evaluation; a lock whose criteria were met in a scan:
  T_sw, A(L*) and depth (R162, R165, R176) -/
  binBad   : Bool := false
  sinceEval : Nat := 0
  lockDue  : Option (Q × Q × Q) := none
  /-- A(L*) of the last evaluation -/
  aLast    : Q := 0
  swell    : Option Swell := none
  swellOk  : Option Q := none
  kept     : Option Swell := none
  /-- wave matching (R168, R169) -/
  rg       : Q := 0
  match_   : Q := 1
  matchUp  : Bool := true
  ratioK   : Option Q := none
  firstCycle : Bool := true
  /-- resistances accepted in the running cycle, mΩ, and its two integrals, mW·s (R168, R169) -/
  rAcc     : Acc := {}
  pInt     : Q := 0
  eInt     : Q := 0
  /-- E_est of the last three frames, newest first, and the cycle's highest, mV (R169, R170) -/
  eHist    : List Q := []
  eMax     : Q := 0
  energy   : Q := 0
  cWithdraw : Cnt := {}
  cQualFail : Cnt := {}
  cUndet   : Cnt := {}
  cOv      : Cnt := {}
  cScan    : Cnt := {}
  cSwell   : Cnt := {}
  deriving DecidableEq, Repr

/-! ### Battery ports and cells (chapters 7, 8) -/

/-- Charge states, coded as the table "Battery telemetry". -/
inductive Charge where
  | off | qualification | preCharge | bulk | absorption | float | maintenance | equalise | dormant | dischargeOnly | hold
  deriving DecidableEq, Repr

/-- Discharge states, coded as the table "Battery telemetry". -/
inductive Discharge where
  | normal | cutoff | reserve | temperature | wardenStop
  deriving DecidableEq, Repr

/-- The over-voltage state of a port's cells, coded as the table "Cell telemetry". -/
inductive Ovp where
  | armed | stopped | clearable | resetOnly
  deriving DecidableEq, Repr

/-- What a battery Qualification has shown so far (R191, R192, R217): its time, s; frame means of V_BANK and of every segment, mV; the
count of its first 100 ms; the first check broken; whether the bank stayed at rest. -/
structure BatQual where
  time   : Q := 0
  v      : Acc := {}
  cells  : Vector Acc 16 := .replicate 16 {}
  count  : Nat := 0
  bad    : Option Nat := none
  atRest : Bool := true
  deriving DecidableEq, Repr

structure Bat where
  charge   : Charge := .off
  cut      : Bool := false
  tempStop : Bool := false
  called   : Bool := false
  paused   : Bool := false
  vBank    : Acc := {}
  iBank    : Acc := {}
  vTaps    : Acc := {}
  tHi      : Q := 0
  tLo      : Q := 0
  tMean    : Q := 0
  ntcOk    : Bool := false
  iProg    : Q := 0
  iLim     : Q := 0
  iCmd     : Q := 0
  iDis     : Q := 0
  /-- the regulator's integral, mA, once it has bound in the state (R188) -/
  vReg     : Option Q := none
  regBinds : Bool := false
  regTime  : Q := 0
  clampBinds : Bool := false
  supplyLim : Bool := false
  platLim  : Bool := false
  throttled : Bool := false
  /-- safety timer counted, s (R198), and timers of conditions that hold, s -/
  timer    : Q := 0
  preTime  : Q := 0
  floatTime : Q := 0
  eqTime   : Q := 0
  eqDue    : Bool := false
  /-- time base at the last completed equalise, or at the boot (R197) -/
  eqTb     : TB := 0
  qualWait : Bool := false
  qualRetry : Bool := false
  afterClear : Bool := false
  qual     : BatQual := {}
  /-- cause of the last failed check 2: 1 tap fault, 2 cell count (R217) -/
  qualCause : Fin 3 := 0
  /-- times for which conditions have held, s: since a failed qualification (R193), paused (R187), in the pulse (R194), in the rest,
  since the rest (R227), charging in Bulk or since the last probe (R230), below V_CUT and at or above V_RST (R202), the Ride above
  V_UN (R203) -/
  retryTime : Q := 0
  pauseTime : Q := 0
  pulseTime : Q := 0
  restTime : Q := 0
  fitTime  : Q := 0
  probeTime : Q := 0
  cutTime  : Q := 0
  rstTime  : Q := 0
  callTime : Q := 0
  /-- I_BANK of the last 39 frames, newest first, mA: 10 ms (R194) -/
  iHist    : List Q := []
  /-- pulses and rests (R194, R195) -/
  resting  : Bool := false
  /-- the rest is a probe, and a first probe has been made in this Bulk (R230) -/
  probing  : Bool := false
  probed   : Bool := false
  /-- the relaxation capture (R227): t0, the samples of the segments and of the bank current with their time stamps, newest first -/
  restT0   : Option TB := none
  capV     : List (TB × Fin 16 × Q) := []
  capI     : List (TB × Q) := []
  /-- a rest has ended undisturbed and its capture awaits its fit -/
  fitDue   : Bool := false
  restLen  : Q := 1000
  passes   : Nat := 0
  fitFails : Nat := 0
  rests    : Nat := 0
  netDis   : Q := 0
  vInf     : Q := 0
  rBank    : Q := 0
  soc      : Q := 0
  socKnown : Bool := false
  netSince : Q := 0
  chargedSince : Bool := true
  coldSince : Bool := false
  coulomb  : Q := 0
  energy   : Q := 0
  chgThru  : Q := 0
  disThru  : Q := 0
  cTerm    : Cnt := {}
  cDormant : Cnt := {}
  cCut     : Cnt := {}
  cDisturb : Cnt := {}
  cFitFail : Cnt := {}
  cQualFail : Cnt := {}
  faultWord : Half := 0
  /-- time without charge current beyond 2 % of full scale, s (R450) -/
  primQuiet : Q := 0
  gangRefused : Bool := false
  /-- cells -/
  seg      : Vector Acc 16 := .replicate 16 {}
  /-- the segment readings for per-cell decisions: while a balancing switch is closed, of the quiet window alone (R225) -/
  quiet    : Vector Acc 16 := .replicate 16 {}
  rOhm     : Vector Q 16 := .replicate 16 0
  /-- R_Ω per cell of the latest passed fit or probe (R202) -/
  rLast    : Vector Q 16 := .replicate 16 0
  r25      : Vector Q 16 := .replicate 16 0
  cellInf  : Vector Q 16 := .replicate 16 0
  nSeg     : Nat := 0
  accepted : Option Nat := none
  /-- the set to bleed, the switches the engine last wrote, and the frames since (R224, R225) -/
  bleed    : Half := 0
  bleedWritten : Half := 0
  bleedAge : Nat := 0
  oddSlot  : Bool := false
  bleedHours : Vector Q 16 := .replicate 16 0
  ovp      : Ovp := .armed
  ovpMask  : Half := 0
  ovpTrips : List TB := []
  /-- time base of the last crossing (R221) -/
  ovpTb    : TB := 0
  openMask : Half := 0
  tapStop  : Bool := false
  tapPasses : Nat := 0
  /-- R_Ω per cell of the last four passed probes, newest first, mΩ (R231) -/
  probes   : List (List Q) := []
  probeSeen : Bool := false
  iPlat    : Option Q := none
  platTerm : Fin 4 := 0
  /-- the band of T_LO, none before its first reading -/
  band     : Option (Fin 4) := none
  sohR     : Option Q := none
  rLearn   : List Q := []
  sohVals  : List Q := []
  sohC     : Option Q := none
  cTrips   : Cnt := {}
  cTap     : Cnt := {}
  cProbe   : Cnt := {}
  deriving DecidableEq, Repr

/-! ### USB ports (chapter 9) -/

/-- Type-C states; the Try and TryWait states share code 7 of the table "USB telemetry". -/
inductive TypeC where
  | disabled | unattSnk | attWaitSnk | attSnk | unattSrc | attWaitSrc | attSrc | trySnk | trySrc | tryWaitSnk | tryWaitSrc
  | errorRecovery
  deriving DecidableEq, Repr

/-- The contract in force, coded as the table "USB telemetry". -/
inductive ContractKind where
  | none | implicit | fixed | pps | eprFixed
  deriving DecidableEq, Repr

structure Contract where
  kind : ContractKind := .none
  pos  : Nat := 0
  mv   : Q := 0
  ma   : Q := 0
  pdo  : Word := 0
  rdo  : Word := 0
  deriving DecidableEq, Repr

/-- Anvil's own request that waits for its reply (R246, R262). -/
inductive Ask where
  | none | request | prSwap | drSwap | vconnSwap | discover | sourceCap | softReset | eprEnter | keepAlive
  deriving DecidableEq, Repr

/-- Where a PR_Swap or a source transition stands (R257, R261, R265). -/
inductive Seq where
  | none
  /-- source, Accept sent, target due after 30 ms / limiter moving -/
  | accepted | moving
  /-- PR_Swap from source to sink: VBUS going down, waiting for the partner's PS_RDY; from sink to source: waiting for that PS_RDY,
  for the timers, VBUS rising -/
  | swapDown | swapSink | swapWait | swapStart | swapUp
  /-- Hard Reset recovery as source, and as sink before VBUS has fallen and after -/
  | hrSource | hrSink | hrSinkLow
  /-- VBUS going to vSafe0V after a detach or a shed -/
  | drain
  /-- VBUS rising to vSafe5V after an attach or a Hard Reset -/
  | rise
  deriving DecidableEq, Repr

/-- The protocol layer of one SOP type (R244). -/
structure PdLayer where
  txId   : BitVec 3 := 0
  stored : Option (BitVec 3) := none
  deriving DecidableEq, Repr

structure Usb where
  tc       : TypeC := .disabled
  path     : Path := .absent
  view     : CcView := .open_
  source   : Bool := false
  dfp      : Bool := false
  vconnSrc : Bool := false
  vconnOn  : Bool := false
  vconnBad : Bool := false
  epr      : Bool := false
  pd20     : Bool := false
  barred   : Bool := false
  origSource : Bool := false
  origVconn : Bool := false
  sinkTxOk : Bool := true
  rpLevel  : Fin 3 := 0
  dschg    : Bool := false
  contract : Contract := {}
  next     : Contract := {}
  ask      : Ask := .none
  askGone  : Bool := false
  reqSlot  : Option SwapKind := none
  waitDue  : Bool := false
  /-- an own sequence that waits for SinkTxOK (R262) -/
  later    : Ask := .none
  seq      : Seq := .none
  handover : Bool := false
  /-- the hand-over that runs ends in Type-C attach detection (R57): the port was withdrawn or detached -/
  redetect : Bool := false
  /-- check 3 of R151 is broken since the port began to qualify (R248) -/
  qualBad  : Bool := false
  /-- the swap under way is the port's own; VCONN goes off at the partner's PS_RDY -/
  swapOwn  : Bool := false
  vconnWait : Bool := false
  /-- BIST Test Data: received messages are acknowledged only -/
  bist     : Bool := false
  /-- source shed class that the engine last wrote (R239) -/
  cls      : Fin 8 := 0
  swapDone : Bool := false
  vconnDone : Bool := false
  discTries : Nat := 0
  cable    : Fin 4 := 0
  hrCount  : Nat := 0
  /-- the partner drove VBUS at a Hard Reset of the port as source, and VBUS has not yet fallen (R266) -/
  partnerDrives : Bool := false
  capWait  : Nat := 0
  ovTimes  : List TB := []
  held60   : Bool := false
  latched  : Bool := false
  holdLost : Bool := false
  sop      : PdLayer := {}
  sopP     : PdLayer := {}
  txBusy   : Option (List Byte) := none
  txTries  : Nat := 0
  txSeq    : Half := 0
  held     : List (TB × List Byte) := []
  vbus     : Acc := {}
  i        : Acc := {}
  /-- port power of each record, mW (R267) -/
  pw       : Acc := {}
  kCorr    : Q := 1
  clampBinds : Bool := false
  ppsLimit : Bool := false
  ovStop   : Bool := false
  /-- the shed class of the port is shed and Anvil has not yet answered it (R51, R260) -/
  shed     : Bool := false
  /-- the channel hiccupped in the source role, and Anvil has not yet answered it (R260) -/
  hicHit   : Bool := false
  offered  : List Word := []
  /-- objects of the partner's last Source_Capabilities -/
  partner  : List Word := []
  /-- tSwapSourceStart has run out while the hand-over still runs (R261) -/
  startDue : Bool := false
  /-- the port's keys as its attach found them: a change applies at the next attach (R239) -/
  keys     : List (Half × Int) := []
  /-- Hard Reset requested from the PHY whose signalling has not yet been reported sent -/
  hrAsked  : Bool := false
  energy   : Q := 0
  cAttach  : Cnt := {}
  cHrSent  : Cnt := {}
  cHrRecv  : Cnt := {}
  cSoft    : Cnt := {}
  cTxFail  : Cnt := {}
  cSwap    : Cnt := {}
  cShed    : Cnt := {}
  cOv      : Cnt := {}
  deriving DecidableEq, Repr

/-! ### Load ports (chapter 10) -/

/-- Load port states, coded as the table "Load telemetry". -/
inductive LoadState where
  | off | softStart | on | limiting | retryWait | latched
  deriving DecidableEq, Repr

structure Load where
  state    : LoadState := .off
  commanded : Bool := false
  fromOn   : Bool := false
  retry    : Nat := 0
  /-- values last written by Anvil (R272, R273): shed class, limit mV across the shunt, the shunt mΩ, soft-start slew V/ms, t_FLT ms,
  retry count, retry off-time ms, retry reset interval s -/
  cls      : Fin 8 := 0
  limMv    : Q := 40
  shunt    : Q := 10
  slew     : Q := 1
  tFlt     : Q := 2
  retCnt   : Nat := 4
  retOff   : Q := 1000
  retReset : Q := 10
  /-- time base at the entry into the present state, and the soft-start timer set then, ms (R275) -/
  tb       : TB := 0
  ssMs     : Q := 0
  v        : Acc := {}
  i        : Acc := {}
  /-- power of each record, mW -/
  pw       : Acc := {}
  vPol     : Q := 0
  iPol     : Q := 0
  pPol     : Q := 0
  energy   : Q := 0
  cFast    : Cnt := {}
  cLimit   : Cnt := {}
  cSoft    : Cnt := {}
  cLatch   : Cnt := {}
  cShed    : Cnt := {}
  deriving DecidableEq, Repr

/-! ### The Assay (chapter 11) -/

/-- Trigger kinds of an entry (R289). -/
inductive Trig where
  | off | period (us offset : Nat) | frame (us : Nat) | frameRandom (every : Nat) | ring (ch : Fin 16) (offset every : Nat)
  | rest (port : Fin 4) | linked (g : Fin 4) (e : Fin 64) | software
  deriving DecidableEq, Repr

/-- A schedule entry (R289); `load` names the load port whose pair the set uses (R287). -/
structure SchedEntry where
  inputs   : List (Fin 48) := []
  rotation : Bool := false
  trigger  : Trig := .off
  port     : Option (Fin 4) := none
  load     : Option (Fin 32) := none
  standby  : Bool := false
  suspended : Bool := false
  count    : BitVec 10 := 0
  missed   : Bool := false
  miss     : Cnt := {}
  /-- occurrences without a record since the last one (R281, R293) -/
  gap      : Nat := 0
  /-- the generator of a frame-random entry, none while it stands at its seed, and the frame of its last trigger; the ring period of a
  ring entry's first trigger and of its last (R289) -/
  gen      : Option (BitVec 16) := none
  drawnTb  : Option TB := none
  ring0    : Option (Nat × Nat) := none
  deriving DecidableEq, Repr

/-- A set that runs, waits or was aborted (R288, R290, R295). -/
structure SetRun where
  entry    : Fin 64
  inputs   : List (Fin 48)
  convs    : List (Fin 16) := []
  tags     : List (BitVec 4)
  rest     : List (Fin 48) := []
  restTag  : Nat := 0
  count    : BitVec 10
  port     : Option (Fin 4) := none
  load     : Option (Fin 32) := none
  restarted : Bool := false
  linked   : Bool := false
  start    : TB := 0
  deriving DecidableEq, Repr

structure Urgent where
  hardware : Bool
  master   : BitVec 4
  inputs   : List (Fin 48)
  port     : Option (Fin 4)
  deriving DecidableEq, Repr

structure Conv where
  healthy : Bool := true
  fails   : Nat := 0
  parity  : List TB := []
  offset  : Q := 0
  gain    : Q := 1
  /-- fault cleared, waiting for a passing check (R303) -/
  readmit : Bool := false
  /-- time base at the last background calibration (R300) -/
  calTb   : TB := 0
  deriving DecidableEq, Repr

structure Group where
  entries  : Vector SchedEntry 64 := .replicate 64 {}
  waiting  : List (Fin 64) := []
  running  : Option SetRun := none
  remain   : Option SetRun := none
  aborted  : Option SetRun := none
  urgent   : List Urgent := []
  selected : Fin 4 := 0
  lowPower : Bool := false
  lowPend  : Option Bool := none
  failedIn : BitVec 48 := 0
  pathFails : BitVec 48 := 0
  readmitIn : BitVec 48 := 0
  lost     : Bool := false
  /-- the measurement entries last written by Anvil (R306, R308) -/
  built    : List SchedEntry := []
  /-- time base at the last converter check and at the last path check, and the input checked next (R303, R304) -/
  checkTb  : TB := 0
  pathTb   : TB := 0
  pathNext : Fin 48 := 0
  deriving DecidableEq, Repr

/-! ### Temperature (chapter 12) -/

structure Sensor where
  /-- the result of the last rotation that Warden has not yet evaluated: °C, or for an NTC the ratio to its bias (R286, R311); and the
  temperature last read, °C, none for a reading beyond 2 % or 98 % of the bias -/
  next     : Option Q := none
  raw      : Option Q := some 0
  read     : Bool := false
  used     : Q := 0
  failed   : Bool := false
  /-- 0 deviation, 1 open, 2 short, 3 path (R312) -/
  failKind : Fin 4 := 0
  devs     : Nat := 0
  pair     : Option (Fin 20 × Fin 20) := none
  restoring : Bool := false
  /-- time base at the clear that began the restoration (R313) -/
  restTb   : TB := 0
  warning  : Bool := false
  throttle : Bool := false
  shutdown : Bool := false
  opens    : Nat := 0
  shorts   : Nat := 0
  deriving DecidableEq, Repr

structure Therm where
  sensors  : Vector Sensor 20 := .replicate 20 {}
  tj       : Q := 0
  theta    : Q := 1
  tjThrottle : Bool := false
  /-- a shutdown stands: comparators tripped, Warden's own, and the sensors above their thresholds since the trip -/
  comp     : BitVec 12 := 0
  compOff  : BitVec 12 := 0
  warden   : Bool := false
  above    : BitVec 20 := 0
  /-- since when every valid sensor has been below its release value (R320), and a rotation that awaits its evaluation (R312) -/
  calm     : Option TB := none
  rotDue   : Bool := false
  counted  : List TB := []
  shutCnt  : Cnt := {}
  failCnt  : Cnt := {}
  deriving DecidableEq, Repr

/-! ### Engines (chapter 13), faults (chapter 19) -/

structure Engine where
  running  : Bool := false
  failed   : Bool := false
  retained : Bool := false
  /-- stopped by a fetch that it may not make or of uncorrectable code, and not yet taken up by Warden (R29, R326) -/
  halted   : Bool := false
  /-- frames completed since its last release, and frames missed in succession as Warden counts them (R31) -/
  frames   : Nat := 0
  missed   : Nat := 0
  /-- keys of its units that Anvil has passed on Q10 or Q12 and that it takes in its next frame (R19; log 110) -/
  due      : List Half := []
  fails    : List TB := []
  repSeq   : Half := 0
  /-- restarted, and not yet verified by 64 frames (R500) -/
  verify   : Bool := false
  deriving DecidableEq, Repr

inductive Cls where
  | note | degrade | portStop | deviceStop
  deriving DecidableEq, Repr

/-- A standing fault (R493): the first report, class, occurrences and flags. -/
structure FaultRec where
  id       : Half
  cls      : Cls
  /-- class before the last escalation, for its event (R502) -/
  oldCls   : Cls
  rep      : Report
  occ      : Byte := 1
  tb       : TB
  injected : Bool := false
  resetOnly : Bool := false
  readmit  : Bool := false
  deriving DecidableEq, Repr

structure Collector where
  feAddr   : Word := 0
  feMaster : BitVec 4 := 0
  feType   : BitVec 3 := 0
  feChecker : Byte := 0
  feTb     : TB := 0
  feValid  : Bool := false
  /-- the captured report, until Warden has read it (R489) -/
  capture  : Option Report := none
  q8Ovf    : Cnt := {}
  q8Seen   : Half := 0
  pend     : BitVec 64 := 0
  pendEv   : BitVec 64 := 0
  inject   : List (Byte × Nat) := []
  deriving DecidableEq, Repr

structure Warden where
  alive    : Bool := false
  standing : List FaultRec := []
  nextId   : Half := 1
  listFull : Bool := false
  unrecorded : Half := 0
  restarts : List TB := []
  restartDue : List (Fin 12) := []
  evSeq    : Word := 0
  /-- values of the keys that Warden applies, as last received (R553) -/
  keys     : List (Half × Int) := []
  devStopRep : Option Report := none
  /-- when Warden last served its hardware watchdog (R34) -/
  fedTb    : TB := 0
  deriving DecidableEq, Repr

/-! ### Host window, mailbox, parameters, one-time memory (chapters 14 to 18) -/

structure Hosts where
  released : Bool := false
  haddr    : BitVec 7 := 0x5A
  pointer  : Half := 0
  frameErr : Bool := false
  busErr   : Bool := false
  hostErr  : Bool := false
  spiErr   : Cnt := {}
  hbusErr  : Cnt := {}
  spiProto : Cnt := {}
  hbusProto : Cnt := {}
  /-- high halves latched by a read of the low half, of TB and of FE_TB, per master (R337, R380) -/
  tbHiSpi  : Option Word := none
  tbHiHbus : Option Word := none
  feHiSpi  : Option Word := none
  feHiHbus : Option Word := none
  scratch  : Word := 0
  intPend  : BitVec 13 := 0
  irqEn    : BitVec 13 := 0x0073
  alertEn  : BitVec 13 := 0x0070
  alertArmed : Bool := false
  /-- keys 0x0020 and 0x0021 set by a command, their registers to be written in the next policy frame (R384) -/
  irqDue   : Bool := false
  alertDue : Bool := false
  /-- the model's own: what the device returned in the last host transaction, and the acknowledge of each HBUS byte -/
  out      : List Byte := []
  acks     : List Bool := []
  deriving DecidableEq, Repr

/-- Long-running command kinds (R393, R410). -/
inductive LongKind where
  | image | cRegion | lock | revoke
  deriving DecidableEq, Repr

structure Long where
  kind  : LongKind
  tag   : Byte
  q0idx : Half
  sel   : Byte := 0
  sel2  : Byte := 0
  deriving DecidableEq, Repr

structure Mailbox where
  ready    : Bool := false
  q0mem    : Mem := []
  /-- the host targets that committed the doorbells of the commands in Q0, in their order (R394) -/
  q0By     : List (BitVec 4) := []
  long     : List Long := []
  evLost   : Half := 0
  evFirst  : Word := 0
  tlmSeq   : Word := 0
  tlmLost  : Half := 0
  tlmNow   : BitVec 7 := 0
  /-- kinds already pushed from the newest refresh (R447) -/
  tlmDone  : BitVec 7 := 0
  /-- reset or restart due 10 ms after its response (R414, R453); ship mode due with its FLAGS (R415) -/
  resetDue : Bool := false
  restartDue : Bool := false
  shipDue  : Option Byte := none
  stage    : Mem := []
  stageLen : Nat := 0
  patch    : Mem := []
  patchLen : Nat := 0
  /-- version of the applied patch and its digest (R451, R484, R485); an accepted one that its restart applies -/
  patched  : Option (Byte × Byte) := none
  patchDig : List Byte := []
  patchDue : Bool := false
  restarted : Bool := false
  /-- the ports begin in the first policy frame after READY (R516) -/
  portsDue : Bool := false
  deriving DecidableEq, Repr

/-- The layers of R474 above the factory values: key to VALUE. -/
structure Params where
  slot    : List (Half × Int) := []
  trial   : Option (List (Half × Int)) := none
  host    : List (Half × Int) := []
  ignored : Half := 0
  applied : Half := 0
  inForce : Fin 15 := 0
  ident   : Word := 0
  /-- configuration records that wait for Q8 credit (R553) -/
  cfgWait : List (Half × Int) := []
  deriving DecidableEq, Repr

/-- The memory as the part leaves final test: F write-locked, position 0 with patch use, the key unit's and the identity's
commit words burned; the contents of F and of the keys are the configuration's constants (R458, R476, R480; [24]). -/
def shippedOtp : Mem :=
  [(0x920, 0x02), (0x923, 0xA5), (0x9DC, 0x3C), (0x9DD, 0xA5), (0x9DE, 0xC3), (0x9DF, 0x5A),
   (0xB40, 0x3C), (0xB41, 0xA5), (0xB42, 0xC3), (0xB43, 0x5A), (0x7D00, 0x01), (0x7D01, 0x01)]

structure Otp where
  mem       : Mem := shippedOtp
  marginal  : List Nat := []
  busy      : Option Long := none
  slot      : Fin 15 := 0
  verifyFail : Bool := false
  interrupted : Bool := false
  words     : Nat := 0
  slotMarg  : BitVec 14 := 0
  cMarg     : Bool := false
  hallMarg  : Bool := false
  margCnt   : Byte := 0
  validSlots : BitVec 14 := 0
  /-- the settings were withdrawn at this boot (R485) -/
  withdrawn : Bool := false
  /-- the attestation scalar that the key unit drew is 0 or not below the group order (R481) -/
  scalarBad : Bool := false
  /-- the controller's buffer of the burn that runs (R471) -/
  buffer    : Mem := []
  /-- boot window of the read locks (R467) -/
  window    : Bool := false
  /-- a background read pass that fell due during a burn (R461) -/
  passDue   : Bool := false
  /-- the multiple of 3600 s of TB of the last read pass (R461) -/
  hour      : Nat := 0
  deriving DecidableEq, Repr

structure Snap where
  front : Mem := []
  due   : Option Mem := none
  seq   : Word := 0
  deriving DecidableEq, Repr

/-- Standby bookkeeping (R338 to R340, R524, R525): the standby source engine by its port and whether it watches that port; frames
left of a wake window; since when the conditions of entry hold, when the last window or the entry was, the last writes of Anvil and
of the standby source engine to the standby watchdog; and the exit cause that ends standby at the next frame start. -/
structure Standby where
  engine   : Option (Fin 8) := none
  watch    : Bool := false
  window   : Option Nat := none
  since    : Option TB := none
  winTb    : TB := 0
  anvilTb  : TB := 0
  srcTb    : TB := 0
  exitDue  : Option Byte := none
  deriving DecidableEq, Repr

/-- SBUS timing values, in 50 ns (R368). -/
structure SbusTimes where
  low       : Nat
  high      : Nat
  hold      : Nat
  setup     : Nat
  startHold : Nat
  susto     : Nat
  buf       : Nat
  deriving DecidableEq, Repr

/-- The SBUS controller: whether the bus is stuck, when a recovery last failed (R372), the timing of the last transfer (R368) and the
bytes it drove, addresses among them (R417). -/
structure Sbus where
  stuck    : Bool := false
  failTb   : Option TB := none
  times    : Option SbusTimes := none
  sent     : List Byte := []
  deriving DecidableEq, Repr

/-- The machine. -/
structure State where
  pending : List Instr := []
  dev     : Dev := .boot
  boot    : Boot := .awaitVcc
  aon     : Aon := {}
  clk     : Clocks := {}
  wires   : Wires := {}
  tb      : TB := 0
  tbRuns  : Bool := false
  lastFrame : Option TB := none
  /-- the model's own counter: the next free value (log 1) -/
  free    : Nat := 0
  ride    : Ride := {}
  tap     : Taproot := {}
  chan    : Vector Chan 16 := .replicate 16 {}
  phase   : Vector Phase 28 := .replicate 28 {}
  src     : Vector Src 8 := .replicate 8 {}
  bat     : Vector Bat 4 := .replicate 4 {}
  usb     : Vector Usb 4 := .replicate 4 {}
  load    : Vector Load 32 := .replicate 32 {}
  vcc     : Acc := {}
  vdrv    : Acc := {}
  sapling : Acc := {}
  group   : Vector Group 4 := .replicate 4 {}
  conv    : Vector Conv 16 := .replicate 16 {}
  therm   : Therm := {}
  eng     : Vector Engine 12 := .replicate 12 {}
  ring    : Vector Ring 16 := .replicate 16 {}
  fc      : Collector := {}
  warden  : Warden := {}
  host    : Hosts := {}
  mbox    : Mailbox := {}
  par     : Params := {}
  otp     : Otp := {}
  snap    : Snap := {}
  stby    : Standby := {}
  sbus    : Sbus := {}
  deriving DecidableEq, Repr

/-- The machine right after a power-on reset (R505, R508): the AON domain up, RESET_CAUSE 0x01, VCC awaited, nothing
else running; every field at the default its declaration names. -/
def State.reset : State := {}

end Sys2Proof.Machine
end

