-- ==== Sys2Proof/Config.lean ====
section
/-! DEFINITION. What one die or one implementation fixes, and the free values: constants without a body, so that no proof
can know them. A statement about any of them holds whatever it is. -/

namespace Sys2Proof.Config

/-- A free value for an unstated quantity, the model's counter of the state applied (log 1). -/
opaque freeQ : Nat → Q

/-- A free whole number for an unstated draw or content, the model's counter applied (log 1). -/
opaque freeNat : Nat → Nat

/-- The dither generator of a ring: its seed from channel and die identity, its next state, and the number below n that a state
draws. The spec gives its 15 bits, not its polynomial, seeding or mapping (R84; log 112). -/
opaque ditherSeed : (ch : Fin 16) → (die : BitVec 64) → BitVec 15
opaque ditherStep : BitVec 15 → BitVec 15
opaque ditherPick : BitVec 15 → (n : Nat) → Nat

/-- The state from which Annealing's generator starts on a channel: derived from its number in a way not given (R123; log 113). -/
opaque prbsSeed : (ch : Fin 16) → BitVec 10

/-- The least-squares fit of the model "Plant model" to the two responses at 64 frequencies between two bounds, Hz: L (nH), R_L (µΩ),
C (0.1 µF), ESR (µΩ), G (µS) and the normalised rms residual. The spec gives no algorithm (R125; log 113). -/
opaque fitPlant : List Response → (lo hi : Q) → Q × Q × Q × Q × Q × Q

/-- The generator of a frame-random entry: its seed, its next state, and the instant in the frame that a state draws, in counts of TB.
The spec gives its 16 bits, not its polynomial, seeding or mapping (R289; log 124). -/
opaque entrySeed : (g : Fin 4) → (entry : Fin 64) → BitVec 16
opaque entryStep : BitVec 16 → BitVec 16
opaque entryInstant : BitVec 16 → Nat

/-- The natural logarithm as Warden computes it: no number format is given (R311; log 2). -/
opaque ln : Q → Q

/-- The n-th report of an engine, 128 bytes, from the flags and values that rules put into it: no layout is given (R30; log 1). -/
opaque reportLayout : (n : Nat) → (flags : List Bool) → (values : List Q) → List Byte

/-- The byte by which an event names its n-th cause, kind, trigger or level, counted from 0 in the order in which its rules
name them: the spec gives no numbers for those that go through this constant (log 19). -/
opaque eventCode : (event : Half) → (n : Nat) → Byte

/-- The 64-bit die identity of region F, per die (R375, R458). -/
opaque dieId : BitVec 64

/-- 1 − exp(−x) as the compensator computes it: the spec gives no number format for it (R106; log 2). -/
opaque lag : Q → Q

/-- 2 to a power between 0 and 1 as the store engine computes it; whole powers are exact (R232; log 2). -/
opaque pow2 : Q → Q

/-- The least-squares fit of v(t) = V_∞ + A × exp(−t / τ) to points of t, in s from the edge, and voltage, mV: V_∞, A and τ. The spec
gives no algorithm (R229; log 122). -/
opaque fitDecay : List (Q × Q) → Q × Q × Q

/-- The engine's 2π (R126; log 2). -/
opaque twoPi : Q

/-- Whether an ECDSA P-256 signature verifies over a digest against the key whose SHA-256 digest is held. The spec names
the algorithm and stores the key's digest alone; how the key reaches the check is not given (R470, R477; log 3). -/
opaque sigVerifies : (keyDigest msgDigest sig : List Byte) → Bool

/-- The signature the key unit makes: it depends on its random numbers (R451, R479; log 3). -/
opaque signature : (draw : Nat) → (msgDigest : List Byte) → List Byte

/-- The attestation public key that the key unit burned as the identity (R479, R480; log 3). -/
opaque identity : List Byte

/-- The per-die mask by which the key unit scrambles its two keys, in bytes, and the bytes of the two keys that it draws at provisioning
(R479, R480; log 3). -/
opaque keyMask : Nat → Byte
opaque drawn : Nat → Byte

/-- The SHA-256 digest of Baeno's patch-signing key, burned at position 0 at final test (R476; log 3). -/
opaque baenoDigest : Nat → Byte

/-- Square root, and the trigonometry of R126 in degrees, as the engine computes them: no number format is given (log 2). -/
opaque root : Q → Q
opaque atanDeg : Q → Q
opaque sinDeg : Q → Q
opaque tanDeg : Q → Q

/-- The gain margin, dB, of the loop of R126's step 10, from the plant (F, Ω, S), its f_RHPZ and fsw, and Kp, Ki, Kd, ω_p:
the spec gives no method for finding the phase crossover (log 2). -/
opaque gainMargin : (c esr g : Q) → (fRhpz : Option Q) → (fsw : Q) → (set : Q × Q × Q × Q) → Q

/-- The set and margins in force where R126 finds no crossover for a nominal plant: the spec states none (log 2). -/
opaque lowSet : (c esr g fsw pm : Q) → Q × Q × Q × Q × Q × Q

/-- Gains of the store engine's PI law, mA per mV and mA per mV·s, from its crossover in Hz and the bank's ohmic resistance in mΩ: the
spec gives the crossover alone (R188; log 2). -/
opaque regGains : (crossover rBank : Q) → Q × Q

/-- The phase of the fundamental of a period's power, as a count of the 32-bit accumulator, from the means of its bins: the
spec gives no method of its computation (R163; log 2). -/
opaque fundamentalError : (bins : List Q) → Int

/-- D_b of a single-leg mode: the boost duty at the lowest supported ratio, a ratio the spec does not give (R126; log 2). -/
opaque boostDuty : Q

/-- The destination field of an entry of Q10 or Q12, whose layout the spec does not give (R24; log 108). -/
opaque entryDest : (entry : List Byte) → BitVec 4

/-- The channel whose registers stand at an address of 0x4000_0000 to 0x400F_FFFF: the spec gives their places in no table
(R27; log 111). -/
opaque regChan : (addr : Word) → Fin 16

/-- An entry of Q10 or Q12 that passes a change to an engine, from the key and its value: the spec gives no layout (R19, R24;
log 110). -/
opaque passEntry : (dest : BitVec 4) → (key : Half) → (value : Int) → List Byte

/-- The 6-bit inner-loop gain code from inductance, sense range and shunt: the spec gives no coding (R101; log 2). -/
opaque gainCode : (l : Q) → (range : Int) → (shunt : Q) → BitVec 6

end Sys2Proof.Config
end

