-- ==== Sys2Proof/WellFormed.lean ====
section
/-! DEFINITION. When a command's operands are ones the outside can supply: lengths that a bus, a ring or a sense front
end can carry. The meanings are total and do not rely on it. -/

namespace Sys2Proof

/-- Bytes of one entry of each ring (table "Ring layout", R328). -/
def entrySize (q : Fin 16) : Nat :=
  match q.val with
  | 0 => 256 | 1 => 256 | 2 => 32 | 3 => 64 | 4 => 16 | 5 => 16 | 6 => 16 | 7 => 16
  | 8 => 32 | 9 => 32 | 10 => 64 | 11 => 128 | 12 => 64 | 13 => 128 | _ => 48

/-- A pushed record is whole entries of its ring; only Q2 and Q3 carry records of several entries (R402, R405). -/
def entryFits (ring : Fin 16) (e : List Byte) : Bool :=
  if ring = 2 then e.length = 32 || e.length = 64
  else if ring = 3 then e.length % 64 = 0 && 0 < e.length && e.length ≤ 320
  else e.length = entrySize ring

/-- Operands that the bus, the ring, the front end or the table of the rule can carry. -/
def WellFormed : Instr → Bool
  | .sbusTransfer _ (.done r) => r.length ≤ 32
  | .sbusTransfer _ (.nackData n) => n < 32
  | .sbusTransfer _ (.clockLow n r) => n ≤ 32 && r.length ≤ 32
  | .sbusTransfer _ (.alwaysLost n) => n ≤ 32
  | .assaySample cs _ => cs.length ≤ 4
  | .testDac cs _ => cs.length ≤ 4
  | .q0WindowWrite o d => o.toNat + d.length ≤ 1024 && !d.isEmpty
  | .registerWrite _ a _ b => a.toNat % 4 = 0 && b ≠ 0
  | .spiFrame m => 3 ≤ m.length
  | .hbusWrite _ d => !d.isEmpty
  | .hbusReadFromPointer _ n => 0 < n
  | .hbusCurrentPointerRead n => 0 < n
  | .otpReadPass ms _ => ms.all fun o => o % 4 = 0 && o < 32768
  | .ringPush r _ e => entryFits r e
  | .assaySetComplete _ cs _ => cs.length ≤ 4
  | .urgentRequest _ _ _ is _ _ => !is.isEmpty && is.length ≤ 4
  | .converterCheck _ rs => rs.length = 4 && rs.all fun r => r.length = 6
  | .ringPeriodBoundary _ p => decide (0 < p.t) && p.phases.length ≤ 16 && p.phases.all fun x => x.edges.length ≤ 4
  | .controlFrame _ b => b.length = 4
  | .pdMessageReceived _ _ _ _ e => e.length = 48
  | .annealingFitComplete _ rs => rs.length = 64
  | .phaseFailure _ c => c.toNat ≤ 5
  | _ => true

end Sys2Proof
end

