-- ==== Sys2Proof/Machine/Ops.lean ====
section
/-! DEFINITION. The named operations of the machine: vectors, byte orders, addressed buffers, checksums, counters, rings,
interrupt causes and events. Every meaning goes through them. -/

namespace Sys2Proof.Machine
open Sys2Proof

/-! ### Vectors and lists -/

/-- The vector with element i replaced by f of it. -/
def upd {α : Type} {n : Nat} (v : Vector α n) (i : Fin n) (f : α → α) : Vector α n := v.set i (f v[i])

/-- Every element replaced by f of its index and itself. -/
def vmapIdx {α β : Type} {n : Nat} (v : Vector α n) (f : Fin n → α → β) : Vector β n :=
  ⟨⟨(List.finRange n).map fun i => f i v[i]⟩, by simp⟩

def vmap {α β : Type} {n : Nat} (v : Vector α n) (f : α → β) : Vector β n := vmapIdx v fun _ x => f x

def vall {α : Type} {n : Nat} (v : Vector α n) (p : α → Bool) : Bool := v.toList.all p
def vany {α : Type} {n : Nat} (v : Vector α n) (p : α → Bool) : Bool := v.toList.any p

/-- State folded over all indices below n. -/
def foldFin {σ : Type} (n : Nat) (s : σ) (f : σ → Fin n → σ) : σ := (List.finRange n).foldl f s

/-! ### Numbers and bytes -/

/-- Nearest integer, halves upward: the model's rounding of a telemetry quantity to its unit (log 6). -/
def rnd (q : Q) : Int := (q + 1 / 2).floor

/-- `n` little-endian bytes of a number, two's complement if negative (R15, R400). -/
def le : Nat → Int → List Byte
  | 0, _ => []
  | k + 1, v => BitVec.ofInt 8 v :: le k (v / 256)

/-- The number of little-endian bytes. -/
def ofLe : List Byte → Nat
  | [] => 0
  | b :: bs => b.toNat + 256 * ofLe bs

/-- The signed number of little-endian bytes. -/
def ofLeS (bs : List Byte) : Int :=
  let v := ofLe bs
  if bs.length = 0 then 0 else if v < 256 ^ bs.length / 2 then v else (v : Int) - (256 ^ bs.length : Nat)

def le16 (v : Half) : List Byte := le 2 v.toNat
def le32 (v : Word) : List Byte := le 4 v.toNat
def le64 (v : TB) : List Byte := le 8 v.toNat
def byte (v : Nat) : Byte := BitVec.ofNat 8 v

/-- A quantity in `n` signed bytes, saturating at the ends of the field. -/
def quant (n : Nat) (q : Q) : List Byte :=
  let m : Int := ((256 ^ n / 2 : Nat) : Int)
  le n (max (-m) (min (m - 1) (rnd q)))

/-- A quantity in `n` unsigned bytes, saturating at the ends of the field. -/
def quantU (n : Nat) (q : Q) : List Byte := le n (max 0 (min (((256 ^ n : Nat) : Int) - 1) (rnd q)))

/-- The slice of `n` bytes at an offset, short lists filled with 0. -/
def slice (bs : List Byte) (off n : Nat) : List Byte :=
  let x := (bs.drop off).take n
  x ++ List.replicate (n - x.length) 0

/-- A list cut or filled with 0 to n bytes. -/
def pad (n : Nat) (bs : List Byte) : List Byte := slice bs 0 n

def byteAt (bs : List Byte) (i : Nat) : Byte := bs.getD i 0

def b2n (b : Bool) : Nat := if b then 1 else 0

/-- Bit i of a bit list gives bit i of the number. -/
def bits : List Bool → Nat
  | [] => 0
  | b :: bs => b2n b + 2 * bits bs

/-- Bit set or cleared in a bit vector. -/
def putBit {w : Nat} (v : BitVec w) (i : Nat) (b : Bool) : BitVec w :=
  if b then v ||| (1#w <<< i) else v &&& ~~~(1#w <<< i)

/-! ### Addressed buffers -/

/-- The byte at an address: an unlisted address reads 0. -/
def memRead : Mem → Nat → Byte
  | [], _ => 0
  | (k, b) :: m, a => if k = a then b else memRead m a

/-- One byte written, the list kept at rising addresses with no byte of 0. -/
def memWrite : Mem → Nat → Byte → Mem
  | [], a, v => if v = 0 then [] else [(a, v)]
  | (k, b) :: m, a, v =>
    if k < a then (k, b) :: memWrite m a v
    else if k = a then (if v = 0 then m else (a, v) :: m)
    else if v = 0 then (k, b) :: m else (a, v) :: (k, b) :: m

def memReadN (m : Mem) (a : Nat) : Nat → List Byte
  | 0 => []
  | n + 1 => memRead m a :: memReadN m (a + 1) n

def memWriteN (m : Mem) (a : Nat) : List Byte → Mem
  | [] => m
  | b :: bs => memWriteN (memWrite m a b) (a + 1) bs

/-- Addresses strictly rise from a bound, and no byte is 0. -/
def memWfFrom : Nat → Mem → Bool
  | _, [] => true
  | lo, (k, b) :: m => decide (lo ≤ k) && decide (b ≠ 0) && memWfFrom (k + 1) m

/-- The canonical form of an addressed buffer. -/
def Memory.wf (m : Mem) : Bool := memWfFrom 0 m

/-! ### Checksums -/

def crcBit16 (c : Half) : Half := if c.msb then (c <<< 1) ^^^ 0x1021 else c <<< 1
def crcByte16 (c : Half) (b : Byte) : Half :=
  let x := c ^^^ ((b.zeroExtend 16) <<< 8)
  crcBit16 (crcBit16 (crcBit16 (crcBit16 (crcBit16 (crcBit16 (crcBit16 (crcBit16 x)))))))

/-- CRC-16, polynomial 0x1021, initial value 0xFFFF, no reflection, no final XOR (R389). -/
def crc16 (bs : List Byte) : Half := bs.foldl crcByte16 0xFFFF

def crcBit32 (c : Word) : Word := if c.getLsbD 0 then (c >>> 1) ^^^ 0xEDB88320 else c >>> 1
def crcByte32 (c : Word) (b : Byte) : Word :=
  let x := c ^^^ b.zeroExtend 32
  crcBit32 (crcBit32 (crcBit32 (crcBit32 (crcBit32 (crcBit32 (crcBit32 (crcBit32 x)))))))

/-- The IEEE 802.3 CRC-32 (R469). -/
def crc32 (bs : List Byte) : Word := ~~~(bs.foldl crcByte32 0xFFFFFFFF)

/-! ### One unit of the state changed -/

def onChan (c : Fin 16) (f : Chan → Chan) (s : State) : State := { s with chan := upd s.chan c f }
def onPhase (k : Fin 28) (f : Phase → Phase) (s : State) : State := { s with phase := upd s.phase k f }
def onSrc (p : Fin 8) (f : Src → Src) (s : State) : State := { s with src := upd s.src p f }
def onBat (p : Fin 4) (f : Bat → Bat) (s : State) : State := { s with bat := upd s.bat p f }
def onUsb (p : Fin 4) (f : Usb → Usb) (s : State) : State := { s with usb := upd s.usb p f }
def onLoad (p : Fin 32) (f : Load → Load) (s : State) : State := { s with load := upd s.load p f }
def onGroup (g : Fin 4) (f : Group → Group) (s : State) : State := { s with group := upd s.group g f }
def onConv (c : Fin 16) (f : Conv → Conv) (s : State) : State := { s with conv := upd s.conv c f }
def onEng (e : Fin 12) (f : Engine → Engine) (s : State) : State := { s with eng := upd s.eng e f }
def onSensor (i : Fin 20) (f : Sensor → Sensor) (s : State) : State :=
  { s with therm := { s.therm with sensors := upd s.therm.sensors i f } }

/-- A fold of a state change over a list. -/
def each {α : Type} (l : List α) (f : α → State → State) (s : State) : State := l.foldl (fun s a => f a s) s

/-- Only the standby source engine runs frames: standby outside a wake window. -/
def deepStandby (s : State) : Bool := s.dev = .standby && s.stby.window.isNone

/-- TB counts from one frame start to the next (R30, R338). -/
def frameStep (s : State) : Nat := if deepStandby s then 204800 else 25600

/-- A time in ms since a moment has passed, to within the frame that the time base marks; while the time base stands it is for the
outside to tell (log 13). -/
def passed (s : State) (since : TB) (ms : Q) : Bool :=
  !s.tbRuns || decide (ms * 100000 ≤ (((s.tb - since).toNat + frameStep s : Nat) : Q))

/-- A time in ms has passed in full. -/
def elapsed (s : State) (since : TB) (ms : Q) : Bool := s.tbRuns && decide (ms * 100000 ≤ (((s.tb - since).toNat : Nat) : Q))

/-- A cause of R525 arises. In standby, which is left at the next control-frame start, the first cause counts; before the entry the
delay restarts (R527). -/
def wantRunning (code : Byte) (s : State) : State :=
  if s.dev = .standby then
    if s.stby.exitDue.isNone then { s with stby := { s.stby with exitDue := some code } } else s
  else { s with stby := { s.stby with since := none } }

/-- A change made only under a condition. -/
def whenS (b : Bool) (f : State → State) (s : State) : State := if b then f s else s

/-- The next free value, and the counter advanced (log 1). -/
def takeFree (s : State) : Q × State := (Config.freeQ s.free, { s with free := s.free + 1 })

/-! ### Counters (R172) -/

/-- One more on a 16-bit counter: at 65 535 it stays and its flag is set; the flag tells that it just got set. -/
def Cnt.bump (c : Cnt) : Cnt := if c.n = 0xFFFF then c else ⟨c.n + 1, c.sat || c.n = 0xFFFE⟩

/-- The bump reaches the limit now. -/
def Cnt.hits (c : Cnt) : Bool := c.n = 0xFFFE && !c.sat

/-! ### Means of a frame (R30) -/

/-- One sample added. -/
def Acc.add (x : Q) (a : Acc) : Acc :=
  { a with sum := a.sum + x, n := a.n + 1, last := x, min := some (Min.min (a.min.getD x) x), max := some (Max.max (a.max.getD x) x) }

/-- The mean of what an accumulator holds; 0 where it holds nothing. -/
def accMean (a : Acc) : Q := if a.n = 0 then 0 else a.sum / a.n

/-- The end of a frame or block: its mean, kept where no sample came. -/
def Acc.close (a : Acc) : Acc :=
  { a with mean := if a.n = 0 then a.mean else a.sum / a.n, sum := 0, n := 0, min := none, max := none,
           peak := if a.n = 0 then a.peak else Max.max (a.min.getD 0).abs (a.max.getD 0).abs }

/-! ### Interrupt causes and the alert latch (R365, R366, R383) -/

/-- Entries waiting in a host ring, from the host's consumer index. -/
def ringCount (r : Ring) : Nat := r.entries.length

/-- The pending word as the host reads it: level bits are their conditions (R383). -/
def pendingWord (s : State) : BitVec 13 :=
  let lvl := bits [ringCount s.ring[1] ≠ 0, ringCount s.ring[2] ≠ 0, ringCount s.ring[3] ≠ 0]
  (s.host.intPend &&& 0x1FF8) ||| BitVec.ofNat 13 lvl

/-- The alert latch after a change: set when an enabled cause became pending (R366). -/
def armAlert (before s : State) : State :=
  let new := pendingWord s &&& ~~~(pendingWord before) &&& s.host.alertEn
  if new = 0 then s else { s with host := { s.host with alertArmed := true } }

/-- An edge cause becomes pending. -/
def setCause (bit : Nat) (s : State) : State :=
  armAlert s { s with host := { s.host with intPend := putBit s.host.intPend bit true } }

def alertLow (s : State) : Bool := s.host.alertArmed && (pendingWord s &&& s.host.alertEn) ≠ 0
def irqLow (s : State) : Bool := (pendingWord s &&& s.host.irqEn) ≠ 0

/-! ### Rings (R327 to R332) -/

/-- Policies without credit (table "Ring layout"). -/
inductive Policy where
  | refuse | stall | drop | overrun | hold
  deriving DecidableEq, Repr

def ringPolicy (q : Fin 16) : Policy :=
  match q.val with
  | 0 => .refuse | 1 => .stall | 2 => .drop | 3 => .drop | 4 => .overrun | 5 => .overrun | 6 => .overrun | 7 => .overrun
  | 8 => .drop | 9 => .stall | 10 => .stall | 11 => .drop | 12 => .stall | 13 => .drop | 14 => .hold | _ => .stall

def capLog2 (q : Fin 16) : Nat :=
  match q.val with
  | 0 => 4 | 1 => 4 | 2 => 8 | 3 => 9 | 4 => 10 | 5 => 10 | 6 => 10 | 7 => 10
  | 8 => 8 | 9 => 7 | 10 => 8 | 11 => 8 | 12 => 7 | 13 => 6 | 14 => 6 | _ => 6

def capacity (q : Fin 16) : Nat := 2 ^ capLog2 q

/-- First internal address of a ring (table "Ring layout"). -/
def ringBase (q : Fin 16) : Nat :=
  match q.val with
  | 0 => 0x20000000 | 1 => 0x20001000 | 2 => 0x20002000 | 3 => 0x20004000 | 4 => 0x2000C000 | 5 => 0x20010000
  | 6 => 0x20014000 | 7 => 0x20018000 | 8 => 0x2001C000 | 9 => 0x2001E000 | 10 => 0x2001F000 | 11 => 0x20023000
  | 12 => 0x2002B000 | 13 => 0x2002D000 | 14 => 0x2002F000 | _ => 0x2002FC00

/-- Internal address of the entry at an index. -/
def entryAddr (q : Fin 16) (i : Half) : Word :=
  BitVec.ofNat 32 (ringBase q + entrySize q * (i.toNat % capacity q))

/-- The effective consumer index (R24): the live list starts at it. -/
def cEff (r : Ring) : Half := r.p - BitVec.ofNat 16 r.entries.length

/-- The producer's credit (R327). -/
def credit (q : Fin 16) (r : Ring) : Nat := capacity q - r.entries.length

/-- How far a consumer lags behind P. -/
def lagOf (r : Ring) (i : Half) : Nat := (r.p - i).toNat

/-- The live list cut to what the slowest consumer has not passed. -/
def trim (r : Ring) : Ring :=
  let keep := (r.cons.map fun c => lagOf r c.2).foldl max 0
  { r with entries := r.entries.drop (r.entries.length - keep) }

/-- Entries cut to the ring's entry size, in the order of the record (R402, R405). -/
def cutEntries (sz : Nat) (bs : List Byte) : Nat → List Entry
  | 0 => []
  | n + 1 => { bytes := slice bs 0 sz } :: cutEntries sz (bs.drop sz) n

/-- The number of entries a record takes. -/
def recordEntries (q : Fin 16) (bs : List Byte) : Nat := max 1 ((bs.length + entrySize q - 1) / entrySize q)

/-- The entries placed and P advanced, with credit at hand. -/
def place (q : Fin 16) (bs : List Byte) (r : Ring) : Ring :=
  let k := recordEntries q bs
  { r with p := r.p + BitVec.ofNat 16 k, entries := r.entries ++ cutEntries (entrySize q) bs k }

def putRing (q : Fin 16) (r : Ring) (s : State) : State := { s with ring := s.ring.set q r }

/-- Bits of the ring error cause: CRC_ERR or WIN_ERR of Q0 to Q3 set (R383). -/
def ringErr (q : Fin 16) (s : State) : State := if q.val < 4 then setCause 9 s else s

/-- One dropped record: the drop counter, and for Q2 and Q3 the LOST cause (R329, R383). -/
def dropRecord (q : Fin 16) (s : State) : State :=
  let s := putRing q { s.ring[q] with cnt := s.ring[q].cnt.bump } s
  if q = 2 || q = 3 then setCause 8 s else s

/-! ### Ring endpoints (R23, R24) -/

/-- The masters that push to a ring. The checkers push to Q8 as hardware: their reports are the row FAULT_REPORT. -/
def isProducer (q : Fin 16) (m : BitVec 4) : Bool :=
  let n := m.toNat
  match q.val with
  | 0 => n = 13 || n = 14
  | 1 => n = 0 | 2 => n = 0 | 3 => n = 0
  | 4 => n = 12 | 5 => n = 12 | 6 => n = 12 | 7 => n = 12
  | 8 => n = 0 || (2 ≤ n && n ≤ 11)
  | 9 => n = 1
  | 10 => n = 0
  | 11 => 2 ≤ n && n ≤ 9
  | 12 => n = 0
  | 13 => n = 10 || n = 11
  | 14 => n = 15
  | _ => n = 0

/-- The consumers of a ring; on Q15 the PHY's port number. -/
def ringConsumers (q : Fin 16) : List (BitVec 4) :=
  match q.val with
  | 0 => [0] | 1 => [13] | 2 => [13] | 3 => [13]
  | 4 => [1, 2, 3, 4, 5, 6, 7, 8, 9]
  | 5 => [0, 1, 2, 3, 4, 5]
  | 6 => [1, 2, 3, 4, 5, 6, 7, 8, 9, 10, 11]
  | 7 => [1, 10, 11]
  | 8 => [1] | 9 => [0]
  | 10 => [2, 3, 4, 5, 6, 7, 8, 9]
  | 11 => [0]
  | 12 => [10, 11]
  | 13 => [0] | 14 => [0]
  | _ => [0, 1, 2, 3]

/-- The consumer as the ring lists it: the two host targets share one index, and the PHYs pop Q15 by port number. -/
def consumerKey (q : Fin 16) (m : BitVec 4) : BitVec 4 := if (q = 1 || q = 2 || q = 3) && m = 14 then 13 else m

def isConsumer (q : Fin 16) (m : BitVec 4) : Bool := (ringConsumers q).contains (consumerKey q m)

/-- The master ID behind a consumer of a ring: the PHYs are master 15 (R26). -/
def consumerMaster (q : Fin 16) (m : BitVec 4) : BitVec 4 := if q = 15 then 15 else m

def indexOf (r : Ring) (m : BitVec 4) : Option Half := (r.cons.find? fun c => c.1 = m).map (·.2)

/-- A consumer's index moved to i, and the live list cut. -/
def moveIndex (m : BitVec 4) (i : Half) (r : Ring) : Ring :=
  trim { r with cons := r.cons.map fun c => if c.1 = m then (m, i) else c }

/-- A consumer gained at P (R332), and lost. -/
def subscribe (m : BitVec 4) (r : Ring) : Ring := { r with cons := (m, r.p) :: r.cons.filter fun c => c.1 ≠ m }
def unsubscribe (m : BitVec 4) (r : Ring) : Ring := trim { r with cons := r.cons.filter fun c => c.1 ≠ m }

/-! ### Fault reports (R488 to R491) -/

def accessCode : Access → Nat
  | .read => 0 | .write => 1 | .fetch => 2 | .push => 3 | .pop => 4 | .none => 7

def accessOf (n : Nat) : Access :=
  match n with
  | 0 => .read | 1 => .write | 2 => .fetch | 3 => .push | 4 => .pop | _ => .none

/-- The 32 bytes of a fault report (table "Fault report"). -/
def reportBytes (tb : TB) (r : Report) : List Byte :=
  [r.checker, byte (r.master.toNat + 16 * accessCode r.access + 128 * b2n r.injected), r.unitKind, r.unitIdx] ++
  le32 r.addr ++ le64 tb ++ le16 r.cause ++ [0, 0] ++ le32 r.value ++ List.replicate 8 0

/-- A report read back from its bytes. -/
def reportOf (bs : List Byte) : Report :=
  let m := (byteAt bs 1).toNat
  { checker := byteAt bs 0, master := BitVec.ofNat 4 m, access := accessOf (m / 16 % 8), injected := 128 ≤ m,
    unitKind := byteAt bs 2, unitIdx := byteAt bs 3, addr := BitVec.ofNat 32 (ofLe (slice bs 4 4)),
    cause := BitVec.ofNat 16 (ofLe (slice bs 16 2)), value := BitVec.ofNat 32 (ofLe (slice bs 20 4)) }

def reportTb (bs : List Byte) : TB := BitVec.ofNat 64 (ofLe (slice bs 8 8))

/-- A report that finds no credit on Q8: counted, and its checker's pending bit set (R491). -/
def dropReport (r : Report) (s : State) : State :=
  let s := putRing 8 { s.ring[8] with cnt := s.ring[8].cnt.bump } s
  { s with fc := { s.fc with q8Ovf := s.fc.q8Ovf.bump, pend := putBit s.fc.pend r.checker.toNat true,
                             pendEv := putBit s.fc.pendEv r.checker.toNat true } }

/-- A report arrives: it takes the first-error capture while FE_VALID is 0, or goes to Q8 (R489). -/
def report (r : Report) (s : State) : State :=
  if s.fc.feValid then
    if 1 ≤ credit 8 s.ring[8] then putRing 8 (place 8 (reportBytes s.tb r) s.ring[8]) s else dropReport r s
  else
    { s with fc := { s.fc with feAddr := r.addr, feMaster := r.master, feType := BitVec.ofNat 3 (accessCode r.access),
                               feChecker := r.checker, feTb := s.tb, feValid := true, capture := some r } }

/-- A report of a checker that watches no access (R488). -/
def reportUnit (checker : Byte) (kind idx : Nat) (cause : Nat) (value : Int) (s : State) : State :=
  report { checker := checker, unitKind := byte kind, unitIdx := byte idx, cause := BitVec.ofNat 16 cause,
           value := BitVec.ofInt 32 value } s

/-- One check of a checker under injection (R503): whether it is fed inverted bits, and one less armed. -/
def injected (checker : Byte) (s : State) : Bool × State :=
  match s.fc.inject.find? fun e => e.1 = checker with
  | some (_, n + 1) =>
    (true, { s with fc := { s.fc with inject :=
      (s.fc.inject.map fun e => if e.1 = checker then (e.1, n) else e).filter fun e => e.2 ≠ 0 } })
  | _ => (false, s)

/-! ### Pushing and popping (R327 to R331) -/

/-- A pending stalled entry goes to the ring when it has credit, in the order produced (R329). -/
def unstallN (q : Fin 16) : Nat → Ring → Ring
  | 0, r => r
  | n + 1, r =>
    match r.stalled with
    | [] => r
    | bs :: rest =>
      if recordEntries q bs ≤ credit q r then unstallN q n (place q bs { r with stalled := rest }) else r

def unstall (q : Fin 16) (s : State) : State :=
  armAlert s (putRing q (unstallN q s.ring[q].stalled.length s.ring[q]) s)

/-- Overrun: every consumer at P − capacity advances by one entry and counts it; its first in the frame is reported (R329). -/
def overrunOne (q : Fin 16) (m : BitVec 4) (s : State) : State :=
  let r := s.ring[q]
  match indexOf r m with
  | none => s
  | some i =>
    if lagOf r i = capacity q then
      let old := ((r.overrun.find? fun e => e.1 = m).map (·.2)).getD {}
      let r1 := moveIndex m (i + 1) r
      let s1 := putRing q { r1 with overrun := (m, old.bump) :: r1.overrun.filter fun e => e.1 ≠ m,
                                    overRep := if r1.overRep.contains m then r1.overRep else m :: r1.overRep } s
      if r.overRep.contains m then s1
      else report { checker := 0x0C, master := m, access := .pop, unitKind := 7, unitIdx := m.zeroExtend 8,
                    value := BitVec.ofNat 32 q.val } s1
    else s

def overrunAll (q : Fin 16) (s : State) : State :=
  if credit q s.ring[q] = 0 then each (ringConsumers q) (overrunOne q) s else s

/-- A record pushed under its ring's policy; Q0's refusals and Q14's hold are the doorbell's and the PHYs' own. -/
def pushRing (q : Fin 16) (bs : List Byte) (s : State) : State :=
  let r := s.ring[q]
  match ringPolicy q with
  | .overrun =>
    let s := overrunAll q s
    putRing q (place q bs s.ring[q]) s
  | .stall =>
    if r.stalled.isEmpty && decide (recordEntries q bs ≤ credit q r) then armAlert s (putRing q (place q bs r) s)
    else putRing q { r with stalled := r.stalled ++ [bs] } s
  | .refuse =>
    if recordEntries q bs ≤ credit q r then putRing q (place q bs r) s
    else putRing q { r with cnt := r.cnt.bump, refused := true } s
  | .drop | .hold =>
    if recordEntries q bs ≤ credit q r then armAlert s (putRing q (place q bs r) s) else dropRecord q s

/-- The entry at a consumer's index; none from an empty ring (R330). -/
def headEntry (q : Fin 16) (m : BitVec 4) (s : State) : Option Entry :=
  let r := s.ring[q]
  match indexOf r m with
  | none => none
  | some i => if lagOf r i = 0 then none else r.entries[r.entries.length - lagOf r i]?

/-- CMDFREE: Q0's credit rises from 0 (R383). -/
def cmdFree (before s : State) : State :=
  if credit 0 before.ring[0] = 0 && credit 0 s.ring[0] ≠ 0 then setCause 3 s else s

/-- A ring CRC mismatch at an index: flagged, and reported with the popping master (R331, R378). -/
def crcMismatch (q : Fin 16) (m : BitVec 4) (i : Half) (inj : Bool) (s : State) : State :=
  let r := s.ring[q]
  let s1 := ringErr q (putRing q { r with crcErr := true, crcIdx := if r.crcErr then r.crcIdx else i } s)
  report { checker := 0x03, master := consumerMaster q m, access := .pop, injected := inj, unitKind := 12,
           unitIdx := byte q.val, addr := entryAddr q i, value := BitVec.ofNat 32 i.toNat } s1

/-- One entry popped by a consumer: it advances, the CRC is checked, and stalled entries follow (R327, R331). -/
def popRing (q : Fin 16) (m : BitVec 4) (crcOk : Bool) (s : State) : State :=
  let key := consumerKey q m
  match headEntry q key s, indexOf s.ring[q] key with
  | some e, some i =>
    let (inj, s1) := injected 0x03 s
    let s2 := putRing q (moveIndex key (i + 1) s1.ring[q]) s1
    let s3 := if crcOk && e.crcOk && !inj then s2 else crcMismatch q m i inj s2
    cmdFree s (unstall q s3)
  | _, _ => s

/-- A bus error of an engine or the Assay DMA (R27, R29). A fetch stops the engine at once. -/
def busError (m : BitVec 4) (a : Access) (addr : Word) (s : State) : State :=
  if m = 12 then report { checker := 0x07, master := m, access := a, unitKind := 9, unitIdx := 0, addr := addr } s
  else if h : m.toNat < 12 then
    report { checker := 0x07, master := m, access := a, unitKind := 7, unitIdx := m.zeroExtend 8, addr := addr }
      (if a = .fetch then onEng ⟨m.toNat, h⟩ (fun x => { x with halted := true }) s else s)
  else s

/-- A host access that is a bus error, at an internal address: captured and counted, shown per target, and cause HOSTERR;
HBUS shows a read and a refused index write in HOST_ERR (R28, R350, R354, R363, R378, R383). -/
def hostErrorAt (b : HostBus) (acc : Access) (addr : Word) (s : State) : State :=
  let h := s.host
  let h1 := match b with
    | .spi => { h with spiErr := h.spiErr.bump, busErr := true }
    | .hbus => { h with hbusErr := h.hbusErr.bump, hostErr := h.hostErr || acc ≠ .write }
  let (m, i) : BitVec 4 × Byte := match b with
    | .spi => (13, 0)
    | .hbus => (14, 1)
  setCause 10 (report { checker := 0x08, master := m, access := acc, unitKind := 13, unitIdx := i, addr := addr } { s with host := h1 })

/-- A bus error of any master: an engine's and the DMA's are reported, a host target's is counted and not escalated; the
rules give one of the PD PHYs no further effect (R23, R29; log 109). -/
def masterError (m : BitVec 4) (a : Access) (addr : Word) (s : State) : State :=
  if m = 13 then hostErrorAt .spi a addr s else if m = 14 then hostErrorAt .hbus a addr s else busError m a addr s

/-! ### Events (R402, R329) -/

/-- An event record of R402: header and data, in one entry of 32 bytes or two. -/
def eventBytes (seq : Word) (code : Half) (fault : Bool) (tb : TB) (data : List Byte) : List Byte :=
  let k := if data.length ≤ 16 then 1 else 2
  pad (32 * k) (le32 seq ++ le16 code ++ [byte k, byte (b2n fault)] ++ le64 tb ++ data)

/-- An event placed on Q2 or dropped; a drop consumes the sequence number and is remembered (R329, R402). -/
def putEvent (code : Half) (fault : Bool) (tb : TB) (data : List Byte) (s : State) : State :=
  let bs := eventBytes s.warden.evSeq code fault tb data
  let seq := s.warden.evSeq
  let s1 := { s with warden := { s.warden with evSeq := seq + 1 } }
  if recordEntries 2 bs ≤ credit 2 s.ring[2] then armAlert s1 (putRing 2 (place 2 bs s.ring[2]) s1)
  else
    let s2 := dropRecord 2 s1
    { s2 with mbox := { s2.mbox with
        evFirst := if s2.mbox.evLost = 0 then seq else s2.mbox.evFirst,
        evLost := if s2.mbox.evLost = 0xFFFF then 0xFFFF else s2.mbox.evLost + 1 } }

/-- The events-lost event, first after credit returned (R329, R404). -/
def flushLost (s : State) : State :=
  if s.mbox.evLost ≠ 0 && decide (1 ≤ credit 2 s.ring[2]) then
    let d := le16 s.mbox.evLost ++ le32 s.mbox.evFirst
    putEvent 0x0002 false s.tb d { s with mbox := { s.mbox with evLost := 0 } }
  else s

/-- Anvil pushes an event to Q2 (R402): first the events-lost event if some were dropped; a fault event sets cause
FAULT, a tier event cause TIER (R383). While the mailbox is closed Anvil pushes none (log 11). -/
def pushEventAt (tb : TB) (code : Half) (fault : Bool) (data : List Byte) (s : State) : State :=
  if s.mbox.ready then
    let s1 := putEvent code fault tb data (flushLost s)
    let s2 := if fault then setCause 4 s1 else s1
    if code = 0x0201 then setCause 11 s2 else s2
  else s

def pushEvent (code : Half) (data : List Byte) (s : State) : State := pushEventAt s.tb code false data s

/-- A counter's saturation event: unit kind in the high byte, counter number in the low byte (R172, R411). -/
def satEvent (code : Half) (port : Nat) (kind num : Nat) (hit : Bool) (s : State) : State :=
  if hit then pushEvent code ([byte port] ++ le 2 (kind * 256 + num : Nat)) s else s

end Sys2Proof.Machine
end

