-- ==== Sys2Proof/Machine/Params.lean ====
section
/-! DEFINITION. The fields of the C-region wires, the chemistry table, and the parameter keys: their factory values, ranges,
dependent ranges and layers (R38, R79, R119, R132, R183, R223, R239, R272, R315, R334, R368, R384, R399 to R401, R474). -/

namespace Sys2Proof.Machine
open Sys2Proof

/-! ### Fields of the C-region wires (R381, R214) -/

def field (w : Word) (lo n : Nat) : Nat := (w >>> lo).toNat % 2 ^ n

def chem (s : State) (p : Fin 4) : Nat := field s.wires.words[0] (8 * p.val) 3
def primaryWire (s : State) (p : Fin 4) : Bool := s.wires.words[0].getLsbD (8 * p.val + 3)

/-- The cell configuration word of a battery port (R214). -/
def cellWord (s : State) (p : Fin 4) : Nat :=
  if p.val < 2 then field s.wires.words[1] (16 * p.val) 16 else field s.wires.words[2] (16 * (p.val - 2)) 16

def segsField (s : State) (p : Fin 4) : Nat := cellWord s p % 32
def cpsField (s : State) (p : Fin 4) : Nat := cellWord s p / 32 % 8
def ovpField (s : State) (p : Fin 4) : Nat := cellWord s p / 256

/-- SEGS in force: 17 to 30 are treated as 31 (R214). -/
def segs (s : State) (p : Fin 4) : Nat := if segsField s p ≤ 16 then segsField s p else 31

/-- Cells per segment; reserved codes give 1, and the port is held in Off (R215). -/
def cps (s : State) (p : Fin 4) : Nat :=
  match cpsField s p with
  | 1 => 2 | 2 => 3 | 3 => 6 | _ => 1

def srcEn (s : State) (p : Fin 8) : Bool := s.wires.words[3].getLsbD p.val
def usbEn (s : State) (p : Fin 4) : Bool := s.wires.words[3].getLsbD (8 + p.val)
def batEn (s : State) (p : Fin 4) : Bool := s.wires.words[3].getLsbD (12 + p.val) && !s.wires.forcedOff.getLsbD p.val
def taprootField (s : State) : Nat := field s.wires.words[3] 16 3

/-- The Taproot port: fields 4 to 7 give none (R62). -/
def tapPort (s : State) : Option (Fin 4) := if h : taprootField s < 4 then some ⟨taprootField s, h⟩ else none
def reedEn (s : State) : Bool := s.wires.words[3].getLsbD 19
def loadEn (s : State) (p : Fin 32) : Bool := s.wires.words[4].getLsbD p.val
def safeMask (s : State) (p : Fin 32) : Bool := s.wires.words[5].getLsbD p.val

/-- A chargeable chemistry code (R177). -/
def chargeable (c : Nat) : Bool := 1 ≤ c && c ≤ 5
def leadAcid (c : Nat) : Bool := c = 4 || c = 5

/-! ### Chemistry values (table "Chemistry values", mV per cell and °C) -/

structure ChemVals where
  abs  : Int := 0
  ocvt : Int := 0
  flt  : Int := 0
  eq   : Int := 0
  pre  : Int := 0
  recov : Int := 0
  cut  : Int := 0
  rst  : Int := 0
  rc   : Int := 0
  kt   : Int := 0
  clo  : Int := 0
  chi  : Int := 0
  dlo  : Int := 0
  dhi  : Int := 0

/-- The table's column of a chemistry code; entries the table leaves blank are 0. -/
def chemVals : Nat → ChemVals
  | 1 => { abs := 3550, ocvt := 3400, pre := 2500, recov := 2000, cut := 2800, rst := 3100, rc := 50, clo := 0, chi := 45, dlo := -20, dhi := 60 }
  | 2 => { abs := 4150, ocvt := 4100, pre := 3000, recov := 2500, cut := 3200, rst := 3500, rc := 50, clo := 0, chi := 45, dlo := -20, dhi := 60 }
  | 3 => { abs := 2750, ocvt := 2650, pre := 1600, recov := 1000, cut := 1800, rst := 2100, rc := 50, clo := -30, chi := 55, dlo := -30, dhi := 60 }
  | 4 => { abs := 2400, ocvt := 2170, flt := 2270, eq := 2500, pre := 1750, cut := 1850, rst := 2050, rc := 100, kt := -30, clo := -20, chi := 50, dlo := -30, dhi := 55 }
  | 5 => { abs := 2350, ocvt := 2170, flt := 2250, pre := 1750, cut := 1850, rst := 2050, rc := 100, kt := -30, clo := -20, chi := 50, dlo := -30, dhi := 55 }
  | 6 => { cut := 2500, rst := 3000, dlo := -40, dhi := 70 }
  | _ => {}

/-- Over-voltage threshold of a chemistry, mV per cell (table "Over-voltage defaults"). -/
def ovpDefault : Nat → Int
  | 1 => 3750 | 2 => 4250 | 3 => 2900 | 4 => 2700 | 5 => 2700 | 6 => 4000 | _ => 0

/-- V_OVP in force, mV per cell (R214). -/
def vOvp (s : State) (p : Fin 4) : Int :=
  if ovpField s p = 0 then ovpDefault (chem s p) else 2000 + 10 * (ovpField s p : Int)

/-! ### The table of keys -/

/-- A row of a parameter table: base key, units, factory VALUE, range, whether 0 stands outside the range, and for a
mask the bits allowed (−1: no mask); a mask's range ends at its highest bit (log 101). -/
structure KeyRow where
  base : Nat
  n    : Nat := 1
  dflt : Int
  lo   : Int
  hi   : Int
  zero : Bool := false
  mask : Int := -1

def keysSystem : List KeyRow := [
  ⟨0x0010, 1, 4, 2, 8, true, -1⟩, ⟨0x0011, 1, 0, 0, 1, false, -1⟩, ⟨0x0012, 1, 1000, 100, 10000, false, -1⟩,
  ⟨0x0013, 1, 30, 1, 3600, true, -1⟩,
  ⟨0x0020, 1, 0x0073, 0, 0xFFFF, false, 0x1FFF⟩, ⟨0x0021, 1, 0x0070, 0, 0xFFFF, false, 0x1FFF⟩,
  ⟨0x0030, 1, 1, 0, 2, false, -1⟩, ⟨0x0031, 1, 0, 10, 400, true, -1⟩, ⟨0x0032, 1, 0, 5, 400, true, -1⟩,
  ⟨0x0033, 1, 0, 1, 69, true, -1⟩, ⟨0x0034, 1, 0, 1, 100, true, -1⟩, ⟨0x0035, 1, 0, 5, 200, true, -1⟩,
  ⟨0x0036, 1, 0, 5, 200, true, -1⟩, ⟨0x0037, 1, 0, 10, 400, true, -1⟩, ⟨0x0038, 1, 25, 1, 100, false, -1⟩,
  ⟨0x0039, 1, 4, 1, 16, false, -1⟩]

def keysTier : List KeyRow := [
  ⟨0x0200, 1, 2400, 1000, 5600, false, -1⟩, ⟨0x0201, 1, 50, 1, 1000, false, -1⟩, ⟨0x0202, 1, 30, 10, 100, false, -1⟩,
  ⟨0x0203, 1, 5, 1, 20, false, -1⟩, ⟨0x0204, 1, 10, 2, 95, false, -1⟩, ⟨0x0205, 1, 20, 5, 100, false, -1⟩,
  ⟨0x0206, 1, 150, 25, 400, false, -1⟩, ⟨0x0207, 1, 250, 45, 500, false, -1⟩, ⟨0x0208, 1, 80, 24, 150, false, -1⟩,
  ⟨0x0209, 1, 5, 2, 20, false, -1⟩, ⟨0x020A, 1, 20, 5, 100, false, -1⟩, ⟨0x020B, 1, 1000, 10, 60000, false, -1⟩,
  ⟨0x020C, 1, 100, 10, 10000, false, -1⟩, ⟨0x020D, 1, 20, 5, 100, false, -1⟩, ⟨0x020E, 1, 0, 500, 6000, true, -1⟩,
  ⟨0x020F, 1, 25, 5, 50, false, -1⟩, ⟨0x0210, 1, 10, 1, 100, false, -1⟩, ⟨0x0211, 1, 20, 16, 26, true, -1⟩,
  ⟨0x0212, 1, 20, 5, 20, false, -1⟩, ⟨0x0213, 1, 5, 1, 50, false, -1⟩, ⟨0x0214, 1, 500, 10, 5000, false, -1⟩,
  ⟨0x0215, 1, 64, 4, 1024, false, -1⟩, ⟨0x0216, 1, 40, 1, 1000, false, -1⟩, ⟨0x0217, 1, 10, 1, 100, false, -1⟩,
  ⟨0x0218, 1, 8, 1, 255, false, -1⟩, ⟨0x0219, 1, 1000, 100, 60000, false, -1⟩]

def keysChannel : List KeyRow := [
  ⟨0x0220, 16, 2500, 1000, 10000, false, -1⟩, ⟨0x0230, 16, 0, 0, 16, false, -1⟩, ⟨0x0240, 16, 4, 1, 16, false, -1⟩,
  ⟨0x0250, 16, 0x6666, 0, 0xFFFF, false, -1⟩, ⟨0x0260, 16, 16, 8, 64, false, -1⟩, ⟨0x0270, 16, 96, 32, 320, false, -1⟩,
  ⟨0x0280, 16, 1, 0, 3, false, -1⟩, ⟨0x0290, 16, 24, 8, 60, false, -1⟩, ⟨0x02A0, 16, 0, 10, 1000, true, -1⟩,
  ⟨0x02B0, 16, 60, 45, 75, false, -1⟩, ⟨0x02C0, 16, 100, 5, 10000, false, -1⟩, ⟨0x02D0, 12, 100, 10, 100000, false, -1⟩,
  ⟨0x02DC, 4, 470, 10, 100000, false, -1⟩, ⟨0x02E0, 16, 0, 0, 2, false, -1⟩, ⟨0x02F0, 16, 50, 1, 10000, false, -1⟩]

def keysSource : List KeyRow := [
  ⟨0x0300, 8, 4, 0, 4, false, -1⟩, ⟨0x0308, 8, 8, 0, 8, false, -1⟩, ⟨0x0310, 8, 500, 10, 10000, false, -1⟩,
  ⟨0x0318, 8, 800, 10, 20000, false, -1⟩, ⟨0x0320, 8, 600, 500, 7800, false, -1⟩, ⟨0x0328, 8, 500, 450, 7750, false, -1⟩,
  ⟨0x0330, 8, 8000, 600, 8000, false, -1⟩, ⟨0x0338, 8, 600, 10, 18000, false, -1⟩, ⟨0x0340, 8, 0, 1, 10000, true, -1⟩,
  ⟨0x0348, 8, 0, 500, 7900, true, -1⟩, ⟨0x0350, 8, 200, 10, 10000, false, -1⟩, ⟨0x0358, 8, 7, 0, 7, false, 7⟩,
  ⟨0x0360, 1, 4, 2, 64, false, -1⟩, ⟨0x0361, 1, 10, 2, 100, false, -1⟩, ⟨0x0362, 1, 300, 30, 3600, false, -1⟩,
  ⟨0x0363, 1, 50, 5, 5000, false, -1⟩, ⟨0x0364, 1, 5, 1, 20, false, -1⟩, ⟨0x0365, 1, 40, 5, 300, false, -1⟩,
  ⟨0x0368, 8, 800, 550, 4000, false, -1⟩]

/-- Battery keys but the chemistry's own ranges: those rows give the widths of R400 and are narrowed by `chemRange`. -/
def keysBattery : List KeyRow := [
  ⟨0x0400, 4, 3, 0, 15, false, 15⟩, ⟨0x0404, 4, 0, 1, 100000, true, -1⟩, ⟨0x0408, 4, 500, 10, 40000, false, -1⟩,
  ⟨0x040C, 4, 1000, 10, 40000, false, -1⟩, ⟨0x0410, 4, 500, 10, 10000, false, -1⟩, ⟨0x0414, 4, 800, 10, 20000, false, -1⟩,
  ⟨0x0418, 4, 800, 10, 20000, false, -1⟩, ⟨0x041C, 4, 1000, 50, 10000, false, -1⟩, ⟨0x0420, 4, 0, 5, 10000, true, -1⟩,
  ⟨0x0424, 4, 0, 0, 0xFFFF, true, -1⟩, ⟨0x0428, 4, 0, 0, 0xFFFF, true, -1⟩, ⟨0x042C, 4, 0, 0, 0xFFFF, true, -1⟩,
  ⟨0x0430, 4, 0, 0, 0xFFFF, true, -1⟩, ⟨0x0434, 4, 0, 0, 0xFFFF, true, -1⟩, ⟨0x0438, 4, 0, 0, 0xFFFF, true, -1⟩,
  ⟨0x043C, 4, 0, 0, 0xFFFF, true, -1⟩, ⟨0x0440, 4, 0, 10, 200, true, -1⟩, ⟨0x0444, 4, 0, -60, -5, true, -1⟩,
  ⟨0x0448, 4, 100, 5, 300, false, -1⟩, ⟨0x044C, 4, 1000, 5, 10000, false, -1⟩, ⟨0x0450, 4, 60, 1, 1440, false, -1⟩,
  ⟨0x0454, 4, 0, 30, 2880, true, -1⟩, ⟨0x0458, 4, 240, 10, 1440, false, -1⟩, ⟨0x045C, 4, 180, 30, 480, false, -1⟩,
  ⟨0x0460, 4, 0, 7, 365, true, -1⟩, ⟨0x0464, 4, 0, -200, 200, false, -1⟩, ⟨0x0468, 4, 0, -200, 200, false, -1⟩,
  ⟨0x046C, 4, 0, -200, 200, false, -1⟩, ⟨0x0470, 4, 0, -200, 200, false, -1⟩,
  ⟨0x0474, 1, 0x03, 1, 255, false, -1⟩, ⟨0x0475, 1, 0x0C, 1, 255, false, -1⟩, ⟨0x0476, 1, 0x30, 1, 255, false, -1⟩,
  ⟨0x0477, 1, 0xC0, 1, 255, false, -1⟩, ⟨0x0478, 4, 0, 1, 10000, true, -1⟩, ⟨0x047C, 1, 0, 0, 4, false, -1⟩,
  ⟨0x047D, 1, 50, 10, 200, false, -1⟩]

def keysCell : List KeyRow := [
  ⟨0x0500, 4, 7, 0, 7, false, 7⟩, ⟨0x0504, 4, 330, 100, 2200, false, -1⟩, ⟨0x0508, 4, 20, 5, 100, false, -1⟩,
  ⟨0x050C, 4, 5, 2, 98, false, -1⟩, ⟨0x0510, 4, 0, 0, 0xFFFF, true, -1⟩, ⟨0x0514, 4, 0, 20, 200, true, -1⟩,
  ⟨0x0518, 4, 0, 1, 10000, true, -1⟩, ⟨0x051C, 1, 600, 60, 3600, false, -1⟩]

def keysUsb : List KeyRow := [
  ⟨0x0600, 4, 2, 0, 4, false, -1⟩, ⟨0x0604, 4, 2000, 500, 4800, false, -1⟩, ⟨0x0608, 4, 120, 5, 480, false, -1⟩,
  ⟨0x060C, 4, 15, 0, 0x7F, false, 0x7F⟩, ⟨0x0610, 4, 500, 10, 10000, false, -1⟩, ⟨0x0614, 4, 800, 10, 20000, false, -1⟩,
  ⟨0x0618, 4, 800, 10, 20000, false, -1⟩, ⟨0x061C, 4, 300, 50, 500, false, -1⟩, ⟨0x0620, 4, 0, 0, 7, false, -1⟩,
  ⟨0x0624, 4, 0x1F, 0, 0x3F, false, 0x3F⟩, ⟨0x0628, 4, 60, 10, 240, false, -1⟩, ⟨0x062C, 4, 50, 10, 1000, false, -1⟩,
  ⟨0x0630, 1, 100, 10, 300, false, -1⟩, ⟨0x0631, 1, 50, 5, 300, false, -1⟩, ⟨0x0634, 4, 8, 0, 8, false, -1⟩,
  ⟨0x0640, 1, 0, 0, 0xFFFF, false, -1⟩, ⟨0x0641, 1, 0, 0, 0xFFFF, false, -1⟩, ⟨0x0642, 1, 0, 0, 0xFFFF, false, -1⟩,
  ⟨0x0643, 1, 0, 0, 0xFFFFFFFF, false, -1⟩, ⟨0x0644, 1, 0x32, 0, 0x3F, false, 0x3F⟩]

def keysLoad : List KeyRow := [
  ⟨0x0700, 32, 0, 0, 1, false, 1⟩, ⟨0x0720, 32, 0, 0, 7, false, -1⟩, ⟨0x0740, 32, 400, 5, 5000, false, -1⟩,
  ⟨0x0760, 32, 1000, 50, 50000, false, -1⟩, ⟨0x0780, 32, 10, 1, 100, false, -1⟩, ⟨0x07A0, 32, 20, 1, 1000, false, -1⟩,
  ⟨0x07C0, 1, 4, 0, 255, false, -1⟩, ⟨0x07C1, 1, 1000, 100, 60000, false, -1⟩, ⟨0x07C2, 1, 10, 1, 3600, false, -1⟩]

def keysAssay : List KeyRow := [
  ⟨0x0800, 1, 0, 0, 15, false, 15⟩, ⟨0x0801, 1, 1000, 100, 10000, false, -1⟩, ⟨0x0802, 1, 60, 10, 3600, false, -1⟩,
  ⟨0x0803, 1, 1000, 4, 60000, true, -1⟩, ⟨0x0804, 1, 0x7F, 0, 0x7F, false, 0x7F⟩]

def keysThermal : List KeyRow := [
  ⟨0x0900, 1, 200, 120, 260, false, -1⟩, ⟨0x0901, 1, 10, 2, 20, false, -1⟩, ⟨0x0902, 1, 230, 130, 250, false, -1⟩,
  ⟨0x0903, 1, 10, 2, 20, false, -1⟩, ⟨0x0904, 1, 270, 240, 270, false, -1⟩, ⟨0x0905, 1, 40, 20, 60, false, -1⟩,
  ⟨0x0906, 1, 6, 2, 20, false, -1⟩, ⟨0x0907, 1, 20, 6, 60, false, -1⟩, ⟨0x0910, 8, 110, -80, 244, false, -1⟩,
  ⟨0x0918, 8, 130, -74, 230, false, -1⟩, ⟨0x0920, 8, 150, 80, 250, false, -1⟩, ⟨0x0928, 8, 1000, 100, 50000, false, -1⟩,
  ⟨0x0930, 8, 3435, 2000, 5000, false, -1⟩, ⟨0x0938, 8, 1000, 100, 50000, false, -1⟩]

/-- Every defined key (R399). -/
def keyTable : List KeyRow :=
  keysSystem ++ keysTier ++ keysChannel ++ keysSource ++ keysBattery ++ keysCell ++ keysUsb ++ keysLoad ++ keysAssay ++
  keysThermal

def findRow (k : Nat) : List KeyRow → Option KeyRow
  | [] => none
  | r :: rs => if r.base ≤ k ∧ k < r.base + r.n then some r else findRow k rs

/-- The rows of a key's group alone, so that a look-up is short. -/
def groupRows (k : Nat) : List KeyRow :=
  match k / 256 with
  | 0 => keysSystem
  | 2 => if k < 0x220 then keysTier else keysChannel
  | 3 => keysSource
  | 4 => keysBattery
  | 5 => keysCell
  | 6 => keysUsb
  | 7 => keysLoad
  | 8 => keysAssay
  | 9 => keysThermal
  | _ => []

def keyRow (k : Half) : Option KeyRow := findRow k.toNat (groupRows k.toNat)

/-! ### What a key belongs to -/

inductive Owner where
  | device | chan (c : Fin 16) | src (p : Fin 8) | usb (p : Fin 4) | bat (p : Fin 4) | load (p : Fin 32) | ntc (n : Fin 8)
  deriving DecidableEq, Repr

def fin8 (k : Nat) : Fin 8 := Fin.ofNat 8 k
def fin4 (k : Nat) : Fin 4 := Fin.ofNat 4 k
def fin16 (k : Nat) : Fin 16 := Fin.ofNat 16 k
def fin32 (k : Nat) : Fin 32 := Fin.ofNat 32 k

/-- The port, channel or NTC whose key it is (R399); the per-unit index is the key less its base. -/
def owner (k : Half) : Owner :=
  match keyRow k with
  | none => .device
  | some r =>
    let i := k.toNat - r.base
    match k.toNat / 256 with
    | 2 => if r.base < 0x220 then .device else if r.base = 0x2DC then .chan (fin16 (i + 12)) else .chan (fin16 i)
    | 3 => if r.n = 1 then .device else .src (fin8 i)
    | 4 => if 0x474 ≤ r.base ∧ r.base ≤ 0x477 then .bat (fin4 (r.base - 0x474)) else if r.n = 1 then .device else .bat (fin4 i)
    | 5 => if r.n = 1 then .device else .bat (fin4 i)
    | 6 => if r.n = 1 then .device else .usb (fin4 i)
    | 7 => if r.n = 1 then .device else .load (fin32 i)
    | 9 => if r.n = 1 then .device else .ntc (fin8 i)
    | _ => .device

/-! ### Layers (R474) -/

def lookup (k : Half) : List (Half × Int) → Option Int
  | [] => none
  | (a, v) :: l => if a = k then some v else lookup k l

/-- A layer with a key set: a later record for the same key wins. -/
def putKey (k : Half) (v : Int) (l : List (Half × Int)) : List (Half × Int) := (k, v) :: l.filter fun e => e.1 ≠ k

/-- The factory VALUE: the temperature keys take the chemistry's, in 0.5 °C (R183). -/
def factory (s : State) (k : Half) : Int :=
  match keyRow k, owner k with
  | some r, .bat p =>
    let c := chemVals (chem s p)
    if r.base = 0x464 then 2 * c.chi else if r.base = 0x468 then 2 * c.clo
    else if r.base = 0x46C then 2 * c.dhi else if r.base = 0x470 then 2 * c.dlo else r.dflt
  | some r, _ => r.dflt
  | none, _ => 0

/-- The image layer in force: a trial replaces the slot layer (R424). -/
def imageLayer (par : Params) : List (Half × Int) := par.trial.getD par.slot

/-- VALUE in force by layers, for layers other than the state's own (checks of R420, R422). -/
def valueIn (s : State) (image host : List (Half × Int)) (k : Half) : Int :=
  match lookup k host with
  | some v => v
  | none =>
    match lookup k image with
    | some v => v
    | none => factory s k

/-- VALUE in force. -/
def param (s : State) (k : Nat) : Int := valueIn s (imageLayer s.par) s.par.host (BitVec.ofNat 16 k)

/-- VALUE of a per-unit key. -/
def paramAt (s : State) (base i : Nat) : Int := param s (base + i)

/-- A VALUE as a quantity: VALUE times the resolution. -/
def paramQ (s : State) (k : Nat) (res : Q) : Q := (param s k : Q) * res

/-- Where a value comes from (R421): 0 factory, 1 slot, 2 host, 3 trial. -/
def origin (s : State) (k : Half) : Nat :=
  if (lookup k s.par.host).isSome then 2
  else match s.par.trial with
    | some t => if (lookup k t).isSome then 3 else 0
    | none => if (lookup k s.par.slot).isSome then 1 else 0

/-! ### Ranges (R400) -/

/-- The range of a battery key that the chemistry sets: 90 % to 102 % of the chemistry value for the voltages (R184), the
window of the temperatures (R183); none where the key does not apply to the code. -/
def chemRange (s : State) (p : Fin 4) (base : Nat) : Option (Int × Int) :=
  let c := chemVals (chem s p)
  let v (x : Int) : Option (Int × Int) := if x = 0 then none else some ((x * 90 + 99) / 100, x * 102 / 100)
  let code := chem s p
  match base with
  | 0x424 => v c.abs | 0x428 => v c.ocvt | 0x42C => v c.flt | 0x430 => v c.eq | 0x434 => v c.pre
  | 0x438 => v c.cut | 0x43C => v c.rst
  | 0x464 => if chargeable code then some (2 * c.chi - 60, 2 * c.chi) else none
  | 0x468 => if chargeable code then some (2 * c.clo, 2 * c.clo + 60) else none
  | 0x46C => if chargeable code || code = 6 then some (2 * c.dhi - 60, 2 * c.dhi) else none
  | 0x470 => if chargeable code || code = 6 then some (2 * c.dlo, 2 * c.dlo + 60) else none
  | _ => none

/-- Keys whose range is the chemistry's. -/
def chemKey (base : Nat) : Bool := (0x424 ≤ base && base ≤ 0x43C) || (0x464 ≤ base && base ≤ 0x470)

/-- The key's range as the widths of R400 and R421 take it. -/
def keyRange (s : State) (k : Half) : Option (Int × Int) :=
  match keyRow k with
  | none => none
  | some r =>
    match owner k with
    | .bat p =>
      if chemKey r.base then
        match chemRange s p r.base with
        | some (lo, hi) => some (if r.zero then (min 0 lo, hi) else (lo, hi))
        | none => some (r.lo, r.hi)
      else some (if r.zero then (min 0 r.lo, max 0 r.hi) else (r.lo, r.hi))
    | _ => some (if r.zero then (min 0 r.lo, max 0 r.hi) else (r.lo, r.hi))

/-- The smallest of 1, 2, 4 and 8 bytes that holds a range: two's complement if it reaches below 0. -/
def sizeOf (lo hi : Int) : Nat :=
  if lo < 0 then
    if -128 ≤ lo ∧ hi < 128 then 1 else if -32768 ≤ lo ∧ hi < 32768 then 2
    else if -2147483648 ≤ lo ∧ hi < 2147483648 then 4 else 8
  else if hi < 256 then 1 else if hi < 65536 then 2 else if hi < 4294967296 then 4 else 8

def keySize (s : State) (k : Half) : Nat :=
  match keyRange s k with
  | some (lo, hi) => sizeOf lo hi
  | none => 1

def keySigned (s : State) (k : Half) : Bool :=
  match keyRange s k with
  | some (lo, _) => lo < 0
  | none => false

/-- VALUE lies in its key's own range. -/
def inRange (s : State) (k : Half) (v : Int) : Bool :=
  match keyRow k with
  | none => false
  | some r =>
    if 0 ≤ r.mask then 0 ≤ v && v ≤ 0xFFFF && v.toNat &&& r.mask.toNat = v.toNat
    else if r.zero && v = 0 then true
    else match owner k with
      | .bat p =>
        if chemKey r.base then
          match chemRange s p r.base with
          | some (lo, hi) => lo ≤ v && v ≤ hi
          | none => true
        else if r.base = 0x444 && !leadAcid (chem s p) then true
        else r.lo ≤ v && v ≤ r.hi
      | _ => r.lo ≤ v && v ≤ r.hi

/-! ### Ranges that depend on other keys (R39, R133, R148, R184, R226, R274, R315) -/

/-- The order and limits of R38 and R39, on VALUEs. -/
def tierOk (g : Nat → Int) : Bool :=
  let e := g 0x202; let d := g 0x203; let u := g 0x205; let f := g 0x206; let m := g 0x207; let o := g 0x208
  let vt := g 0x200; let vd := g 0x211
  g 0x204 ≤ e - 5 && u + 20 ≤ f && f + 20 ≤ m && e + 4 * d + 10 ≤ o &&
  500 * 1000 ≤ vt * (1000 - m) && vt * (1000 + o) ≤ 6400 * 1000 &&
  (vd = 0 || (50 * vd + 150) * 1000 ≤ vt * (1000 - m))

/-- Full scale of a sense range, mV (R96). -/
def senseFs : Int → Int
  | 0 => 25 | 1 => 50 | 2 => 100 | _ => 150

/-- I·R of a channel within 20 % to 95 % of full scale: 0.01 A times 0.01 mΩ against mV (R133). -/
def senseOk (i r range : Int) : Bool := 2000 * senseFs range ≤ i * r && i * r ≤ 9500 * senseFs range

def limitKeys (c : Fin 16) : Nat × Nat × Option Nat :=
  let n := c.val
  if n < 8 then (0x310 + n, 0x318 + n, none)
  else if n < 12 then (0x610 + (n - 8), 0x614 + (n - 8), some (0x618 + (n - 8)))
  else (0x410 + (n - 12), 0x414 + (n - 12), some (0x418 + (n - 12)))

def chanLimitOk (g : Nat → Int) (c : Fin 16) : Bool :=
  let (kr, kp, kv) := limitKeys c
  let range := g (0x280 + c.val)
  senseOk (g kp) (g kr) range && (match kv with | some k => senseOk (g k) (g kr) range | none => true)

/-- R86: fsw with its dither stays within 100 kHz to 1 MHz (0.1 kHz, 0.25 %). -/
def ditherOk (g : Nat → Int) (c : Fin 16) : Bool :=
  let f := g (0x220 + c.val); let d := g (0x230 + c.val)
  1000 * 400 ≤ f * (400 - d) && f * (400 + d) ≤ 10000 * 400

def sourceOk (g : Nat → Int) (p : Fin 8) : Bool :=
  let n := p.val
  let pres := g (0x320 + n); let wd := g (0x328 + n); let qmax := g (0x330 + n); let dc := g (0x348 + n)
  wd ≤ pres - 50 && pres + 100 ≤ qmax && 10 * g (0x338 + n) ≤ 9 * g (0x318 + n) &&
  (dc = 0 || (wd + 50 ≤ dc && dc ≤ qmax - 100)) && wd + 100 ≤ g (0x368 + n)

/-- A chemistry voltage in force at 25 °C, mV per cell: the key's value, or the chemistry's where it is 0 (R183). -/
def orChem (v c : Int) : Int := if v = 0 then c else v

/-- The orders of R184 for one battery port. -/
def chargeOrderOk (s : State) (g : Nat → Int) (p : Fin 4) : Bool :=
  let n := p.val
  let code := chem s p
  let c := chemVals code
  let vabs := orChem (g (0x424 + n)) c.abs; let ocvt := orChem (g (0x428 + n)) c.ocvt
  let flt := orChem (g (0x42C + n)) c.flt; let veq := orChem (g (0x430 + n)) c.eq
  let pre := orChem (g (0x434 + n)) c.pre; let cut := orChem (g (0x438 + n)) c.cut; let rst := orChem (g (0x43C + n)) c.rst
  !chargeable code ||
  ((leadAcid code || c.recov < pre) && pre < cut && cut < rst && rst < ocvt && ocvt ≤ vabs &&
   (!leadAcid code || (ocvt ≤ flt && flt < vabs)) && (code ≠ 4 || vabs ≤ veq) &&
   vabs + g 0x47D ≤ vOvp s p - 50 && (code ≠ 4 || veq ≤ vOvp s p - 50))

def batteryOk (s : State) (g : Nat → Int) (p : Fin 4) : Bool :=
  (g (0x420 + p.val) = 0 || 4 * g (0x420 + p.val) ≤ g (0x408 + p.val)) && chargeOrderOk s g p

/-- R226: the bleed current of a full segment stays within 150 mA. -/
def balResistorOk (s : State) (g : Nat → Int) (p : Fin 4) : Bool :=
  (cps s p : Int) * vOvp s p ≤ 15 * (2 * g (0x504 + p.val) + 20)

def cellOk (s : State) (g : Nat → Int) (p : Fin 4) : Bool :=
  let n := p.val
  let c := chemVals (chem s p)
  let bmin := g (0x510 + n)
  g (0x50C + n) ≤ g (0x508 + n) - 2 &&
  (bmin = 0 || !chargeable (chem s p) ||
    (orChem (g (0x438 + n)) c.cut ≤ bmin && bmin ≤ orChem (g (0x424 + n)) c.abs))

def loadOk (g : Nat → Int) (p : Fin 32) : Bool :=
  let x := g (0x740 + p.val) * g (0x760 + p.val)
  100000 ≤ x && x ≤ 800000

def junctionOk (g : Nat → Int) : Bool := g 0x900 + 10 ≤ g 0x902 && g 0x902 + 20 ≤ g 0x904

def ntcOk (g : Nat → Int) (n : Fin 8) : Bool :=
  g (0x910 + n.val) + 6 ≤ g (0x918 + n.val) && g (0x918 + n.val) + 20 ≤ g (0x920 + n.val)

/-- The dependent ranges that a key bears on hold for the values g. -/
def depOk (s : State) (g : Nat → Int) (k : Half) : Bool :=
  let b := (keyRow k).elim 0 (·.base)
  match owner k with
  | .device =>
    if 0x200 ≤ b && b ≤ 0x208 || b = 0x211 then tierOk g
    else if b = 0x47D then (List.finRange 4).all fun p => chargeOrderOk s g p
    else if b = 0x900 || b = 0x902 || b = 0x904 then junctionOk g
    else true
  | .chan c => if b = 0x280 then chanLimitOk g c else if b = 0x220 || b = 0x230 then ditherOk g c else true
  | .src p =>
    (if b = 0x310 || b = 0x318 then chanLimitOk g (fin16 p.val) else true) && sourceOk g p
  | .usb p => if b = 0x610 || b = 0x614 || b = 0x618 then chanLimitOk g (fin16 (8 + p.val)) else true
  | .bat p =>
    if b = 0x410 || b = 0x414 || b = 0x418 then chanLimitOk g (fin16 (12 + p.val))
    else if b = 0x420 || b = 0x408 then g (0x420 + p.val) = 0 || 4 * g (0x420 + p.val) ≤ g (0x408 + p.val)
    else if b = 0x424 || b = 0x438 then chargeOrderOk s g p && cellOk s g p
    else if chemKey b && b < 0x440 then chargeOrderOk s g p
    else if b = 0x504 then balResistorOk s g p
    else if b = 0x508 || b = 0x50C || b = 0x510 then cellOk s g p
    else true
  | .load p => if b = 0x740 || b = 0x760 then loadOk g p else true
  | .ntc n => if b = 0x910 || b = 0x918 || b = 0x920 then ntcOk g n else true

/-- The values by key of given layers. -/
def getter (s : State) (image host : List (Half × Int)) : Nat → Int := fun k => valueIn s image host (BitVec.ofNat 16 k)

/-! ### Gangs (R5, R206, R207) -/

/-- Ports of each gang of a formation value. -/
def formationGangs (v : Int) : List (List (Fin 4)) :=
  if v = 1 then [[0, 1]] else if v = 2 then [[2, 3]] else if v = 3 then [[0, 1], [2, 3]] else if v = 4 then [[0, 1, 2, 3]] else []

/-- Another port enabled for cells: its SEGS is not 31 (R207, R214). -/
def gangRefused (s : State) (g : List (Fin 4)) : Bool :=
  match g with
  | [] => false
  | low :: rest =>
    rest.any fun p =>
      (chem s p ≠ 0 && chem s p ≠ chem s low) || segs s p ≠ 31 || tapPort s = some p

/-- The gang that a battery port is in, formed or refused. -/
def gangListed (s : State) (p : Fin 4) : Option (List (Fin 4)) := (formationGangs (param s 0x47C)).find? (·.contains p)

/-- The members of a port's formed gang, lowest first; the port alone where none is formed. -/
def gang (s : State) (p : Fin 4) : List (Fin 4) :=
  match gangListed s p with
  | some g => if gangRefused s g then [p] else g
  | none => [p]

/-- The lowest port of a port's formed gang (R408). -/
def gangLow (s : State) (p : Fin 4) : Fin 4 := (gang s p).headD p

/-- A port of a refused formation: its channel is held off (R207). -/
def inRefusedGang (s : State) (p : Fin 4) : Bool :=
  match gangListed s p with
  | some g => gangRefused s g
  | none => false

/-- The battery port of a channel 12 to 15. -/
def batOfChan (c : Fin 16) : Option (Fin 4) := if 12 ≤ c.val then some (fin4 (c.val - 12)) else none
def chanOfBat (p : Fin 4) : Fin 16 := fin16 (12 + p.val)
def chanOfUsb (p : Fin 4) : Fin 16 := fin16 (8 + p.val)
def chanOfSrc (p : Fin 8) : Fin 16 := fin16 p.val

/-- The channels that a channel's commands act on: its whole gang (R429). -/
def chanGang (s : State) (c : Fin 16) : List (Fin 16) :=
  match batOfChan c with
  | some p => (gang s p).map chanOfBat
  | none => [c]

def chanLow (s : State) (c : Fin 16) : Fin 16 := (chanGang s c).headD c

/-- A key of a channel or port of a formed gang other than its lowest (R420). -/
def nonLowestKey (s : State) (k : Half) : Bool :=
  match owner k with
  | .chan c => chanLow s c ≠ c
  | .bat p => gangLow s p ≠ p
  | _ => false

/-- The charge profile of R36 on a primary-flagged port: keys that act only on charging, and charge-option bits 0 to 2. -/
def chargeProfileKey (b : Nat) : Bool :=
  b = 0x408 || b = 0x420 || b = 0x424 || b = 0x428 || b = 0x42C || b = 0x430 || b = 0x434 || b = 0x440 || b = 0x444 ||
  b = 0x448 || b = 0x44C || b = 0x450 || b = 0x454 || b = 0x458 || b = 0x45C || b = 0x460 || b = 0x464 || b = 0x468 || b = 0x478

def profileConflict (s : State) (k : Half) (v : Int) : Bool :=
  match keyRow k, owner k with
  | some r, .bat p => primaryWire s p && (chargeProfileKey r.base || (r.base = 0x400 && v.toNat % 8 ≠ 0))
  | _, _ => false

/-- A port disabled on the C-region wires has the key (R35). -/
def keyPortDisabled (s : State) (k : Half) : Bool :=
  match owner k with
  | .chan c =>
    if h : c.val < 8 then !srcEn s ⟨c.val, h⟩ else if c.val < 12 then !usbEn s (fin4 (c.val - 8)) else !batEn s (fin4 (c.val - 12))
  | .src p => !srcEn s p
  | .usb p => !usbEn s p
  | .bat p => !batEn s p
  | .load p => !loadEn s p
  | _ => false

end Sys2Proof.Machine
end

