-- ==== Sys2Proof/Machine/Operands.lean ====
section
/-! DEFINITION. The units that commands name: channels, their ports, phases and owning engines, their stops, and the
quantities in force for them. -/

namespace Sys2Proof.Machine
open Sys2Proof

/-! ### Phases of a channel (table "Numbering of units", R411) -/

/-- The phases of a channel's own ring, lowest first: one for channels 0 to 11, four for 12 to 15. -/
def phasesOf (c : Fin 16) : List (Fin 28) :=
  if c.val < 12 then [Fin.ofNat 28 c.val] else (List.range 4).map fun p => Fin.ofNat 28 (12 + 4 * (c.val - 12) + p)

def chanOfPhase (k : Fin 28) : Fin 16 := if k.val < 12 then fin16 k.val else fin16 (12 + (k.val - 12) / 4)

/-- The phases of a channel's whole gang. -/
def gangPhases (s : State) (c : Fin 16) : List (Fin 28) := (chanGang s c).flatMap phasesOf

def populatedPhases (s : State) (c : Fin 16) : List (Fin 28) := (gangPhases s c).filter fun k => s.phase[k].populated
def healthyPhases (s : State) (c : Fin 16) : List (Fin 28) :=
  (gangPhases s c).filter fun k => s.phase[k].populated && s.phase[k].healthy
def nPop (s : State) (c : Fin 16) : Nat := (populatedPhases s c).length
def nHealthy (s : State) (c : Fin 16) : Nat := (healthyPhases s c).length

/-- Clamp scaling after phase loss: healthy over populated (R142). -/
def phaseScale (s : State) (c : Fin 16) : Q := if nPop s c = 0 then 0 else (nHealthy s c : Q) / nPop s c

/-! ### Owners -/

def fin12 (n : Nat) : Fin 12 := Fin.ofNat 12 n

/-- The engine that runs a channel: the owner of its gang's lowest (R27). -/
def engineOf (s : State) (c : Fin 16) : Fin 12 :=
  let l := chanLow s c
  if l.val < 8 then fin12 (2 + l.val) else if l.val < 12 then fin12 (2 + (l.val - 8))
  else if l.val < 14 then 10 else 11

def srcEngine (p : Fin 8) : Fin 12 := fin12 (2 + p.val)
def usbEngine (p : Fin 4) : Fin 12 := fin12 (2 + p.val)
def batEngine (s : State) (p : Fin 4) : Fin 12 := engineOf s (chanOfBat p)

/-- An engine executes: released, not failed, not in retention, not stopped by a fetch. -/
def engineUp (s : State) (e : Fin 12) : Bool :=
  s.eng[e].running && !s.eng[e].failed && !s.eng[e].retained && !s.eng[e].halted

/-- Unit kind and index of a channel's port (table "Unit kinds"). -/
def portUnit (c : Fin 16) : Nat × Nat :=
  if c.val < 8 then (1, c.val) else if c.val < 12 then (2, c.val - 8) else (3, c.val - 12)

/-- Channel of a source or USB port. -/
def chanOf (usb : Bool) (p : Fin 8) : Fin 16 := if usb then fin16 (8 + p.val % 4) else fin16 p.val

/-- The C-region's port enable of a channel (R35). -/
def chanEnabled (s : State) (c : Fin 16) : Bool :=
  if c.val < 8 then srcEn s (fin8 c.val) else if c.val < 12 then usbEn s (fin4 (c.val - 8)) else batEn s (fin4 (c.val - 12))

/-! ### Protection stops (R17, R18) -/

/-- Directions a stop inhibits, as (energy to the Ride, energy from the Ride). A charge-direction stop of a battery port
inhibits energy from the Ride; Warden's cut-off stop in hold inhibits discharge (R205). -/
def stopDirs : Stop → Bool × Bool
  | .cellOvp => (false, true)
  | .tapFault => (false, true)
  | .primaryFlag => (false, true)
  | .hold => (true, false)
  | _ => (true, true)

def toRideStopped (c : Chan) : Bool := c.stops.any fun t => (stopDirs t).1
def fromRideStopped (c : Chan) : Bool := c.stops.any fun t => (stopDirs t).2

/-- A stop in both directions: the channel does not switch. -/
def bothStopped (c : Chan) : Bool := toRideStopped c && fromRideStopped c

def addStop (t : Stop) (c : Chan) : Chan :=
  if c.stops.contains t then c else { c with stops := t :: c.stops, fBroken := true }

/-- No stop stands that is ever released: the guard of a primary pack stands for good, and R178 lets such a port discharge at the
limits its engine writes (log 121). -/
def clearOf (l : List Stop) : Bool := l.all fun t => t = .primaryFlag

/-- A channel with no protection stop but that guard. -/
def unstopped (c : Chan) : Bool := clearOf c.stops

/-- A stop released; with the last one gone, what the engine wrote meanwhile takes effect (R18). -/
def dropStop (t : Stop) (c : Chan) : Chan :=
  let l := c.stops.filter fun x => x ≠ t
  if clearOf l then { c with stops := l, lim := c.stored.getD c.lim, stored := none } else { c with stops := l }

/-- An engine's write to a channel's hardware: in force at once, or stored while a protection stop stands (R18). -/
def writeLims (f : Lims → Lims) (c : Chan) : Chan :=
  if unstopped c then { c with lim := f c.lim } else { c with stored := some (f (c.stored.getD c.lim)) }

/-- The clamps of R17 step 2 written, mA towards positive and negative output. -/
def writeClamps (c : Fin 16) (pos neg : Q) (s : State) : State := onChan c (writeLims fun l => { l with pos := pos, neg := neg }) s

/-- What an engine last wrote, in force or stored. -/
def written (c : Chan) : Lims := if unstopped c then c.lim else c.stored.getD c.lim

/-- A stop asserted or released on every channel of a gang. -/
def stopGang (t : Stop) (c : Fin 16) (s : State) : State := each (chanGang s c) (fun c => onChan c (addStop t)) s
def unstopGang (t : Stop) (c : Fin 16) (s : State) : State := each (chanGang s c) (fun c => onChan c (dropStop t)) s

/-! ### Switching -/

/-- The channel of a USB port in the source role: energy flows to the port. -/
def isUsbSource (s : State) (c : Fin 16) : Bool := 8 ≤ c.val && c.val < 12 && s.usb[fin4 (c.val - 8)].source

/-- A source channel or a USB channel in the sink role. -/
def feedsRide (s : State) (c : Fin 16) : Bool := c.val < 12 && !isUsbSource s c

/-- A USB channel in the source role whose shed class is shed (R51). -/
def usbShed (s : State) (c : Fin 16) : Bool := isUsbSource s c && s.ride.shed.getLsbD s.usb[fin4 (c.val - 8)].cls.val

/-- The channel of a gang or port switches: enabled by its owner, not off by command but until the ring's next boundary (R430), not stopped in both directions, in
Switching or Soft-start, with its drivers supplied and a healthy phase; under the Ride's over-voltage stop only a channel that
does not feed the Ride (R49), and a USB source only while its class is not shed (R51). -/
def switching (s : State) (c : Fin 16) : Bool :=
  let ch := s.chan[c]
  ch.enabled && (!ch.offByCmd || ch.offDue) && !bothStopped ch && (ch.hic = .switching || ch.hic = .softStart) &&
  s.clk.vdrvOk && nHealthy s c ≠ 0 && !(s.ride.ovStop && feedsRide s c) && !usbShed s c

/-- No protection stop stands on the channel (R18, R135). -/
def released (s : State) (c : Fin 16) : Bool := unstopped s.chan[c]

/-- A new start of a channel (R109): its loop starts from zero integral on its first period, its clamp ramps from zero, and
it enters Soft-start when it is a start after an Off or a stop (R135). -/
def startChan (c : Fin 16) (soft : Bool) (s : State) : State :=
  onChan c (fun h => { h with enabled := true, started := true, fresh := true, integ := 0, u := 0, uOut := 0, iFilt := 0, revCount := 0,
                              ramp := if soft then 0 else 1, rampTime := h.lim.tSs, limCount := 0,
                              waits := false, hic := if soft then .softStart else .switching }) s

/-- A channel stops switching. -/
def stopChan (c : Fin 16) (s : State) : State :=
  onChan c (fun h => { h with enabled := false, waits := false, u := 0, uOut := 0, integ := 0, fresh := true, limCount := 0, ramp := 0,
                              trans := { h.trans with running := false }, restHold := false, restDue := false }) s

/-! ### Values in force -/

/-- Switching frequency in Hz, crossover and coefficients come from the gang's lowest channel's keys (R79, R119). -/
def chanKey (s : State) (base : Nat) (c : Fin 16) : Int := param s (base + (chanLow s c).val)

/-- Forward and reverse peak limits last written, mA (R16, R130); for a channel that blocks reverse current only the first is
ever reached (R131). -/
def peakFwd (s : State) (c : Fin 16) : Q := s.chan[chanLow s c].lim.pkFwd
def peakRev (s : State) (c : Fin 16) : Q := s.chan[chanLow s c].lim.pkRev

/-- The limits of the keys (R132); a source channel has no reverse key and takes its forward one. -/
def keyFwd (s : State) (c : Fin 16) : Q := (param s (limitKeys (chanLow s c)).2.1 : Q) * 10
def keyRev (s : State) (c : Fin 16) : Q :=
  match (limitKeys (chanLow s c)).2.2 with
  | some k => (param s k : Q) * 10
  | none => keyFwd s c

/-- dV/dt of an edge profile, V/ns (table "Edge profiles"). -/
def profileSlope (i : Nat) : Q :=
  ([1, 3 / 2, 2, 3, 4, 5, 6, 8, 10, 12, 15, 20, 25, 30, 40, 50] : List Q).getD i 50

/-- The profile index of an edge: SW1 rising, SW1 falling, SW2 rising, SW2 falling (R89). -/
def profileOf (p : Half) (edge : Fin 4) : Nat := (p >>> (4 * edge.val)).toNat % 16

/-- The programmed slope of an edge. -/
def edgeTarget (p : Half) (edge : Fin 4) : Q := profileSlope (profileOf p edge)

/-- The slowest profile in use, V/ns. -/
def slowest (p : Half) : Q := (List.finRange 4).foldl (fun m i => min m (edgeTarget p i)) 50

/-- The class a source port runs as: its key's, or the class found while the key says auto (R147, R158); 0 none. -/
def srcClass (s : State) (p : Fin 8) : Nat :=
  let k := paramAt s 0x300 p.val
  if k = 4 then s.src[p].found.val else k.toNat

/-- The class in force as telemetry gives it: a port of class 4 stays 4 until it is classified (R156, R176). -/
def classShown (s : State) (p : Fin 8) : Nat :=
  if paramAt s 0x300 p.val = 4 ∧ s.src[p].found = 0 then 4 else srcClass s p

/-- Warden's copy of a key: the value last received, or the factory value (R553). -/
def wardenKey (s : State) (k : Nat) : Int :=
  (lookup (BitVec.ofNat 16 k) s.warden.keys).getD (factory s (BitVec.ofNat 16 k))

/-- The device is in a state in which its converters may run (table "Device states"). -/
def deviceRuns (s : State) : Bool := s.dev = .running || s.dev = .standby

/-! ### Tier thresholds (R38, R39, R61) -/

/-- 2 to an integer power. -/
def twoTo (e : Int) : Q := if 0 ≤ e then ((2 ^ e.toNat : Nat) : Q) else 1 / ((2 ^ (-e).toNat : Nat) : Q)

/-- A voltage in mV at the nearest 10 mV; the model takes a half upwards (R38; log 6). -/
def r10 (v : Q) : Q := 10 * (rnd (v / 10) : Q)

def thousandth (v : Int) : Q := (v : Q) / 1000

/-- The thresholds of a target in mV. The five of R39 are rounded; the curtail step, the charge span and what R46, R43 and R51
derive from them are not, which R38 leaves open (log 6). -/
def tiersFor (s : State) (vt : Q) : Tiers :=
  { vT := vt, vEM := r10 (vt * (1 + thousandth (param s 0x202))), vUN := r10 (vt * (1 - thousandth (param s 0x205))),
    vFL := r10 (vt * (1 - thousandth (param s 0x206))), vFM := r10 (vt * (1 - thousandth (param s 0x207))),
    vOV := r10 (vt * (1 + thousandth (param s 0x208))),
    step := (param s 0x203 : Q) / 2000 * vt, span := thousandth (param s 0x204) * vt }

/-- V_T in force, mV. -/
def finalTarget (s : State) : Q := paramQ s 0x200 10

/-- The present target moved, with the thresholds written for it (R41). -/
def setPresent (vt : Q) (s : State) : State :=
  { s with ride := { s.ride with present := vt, th := tiersFor s vt } }

def ceil10 (v : Q) : Q := 10 * (-((-(v / 10)).floor) : Int)

/-- The start floor V_SF (R61). -/
def startFloor (s : State) : Q :=
  let m := 1 - thousandth (param s 0x207)
  let vd := paramQ s 0x211 500
  max 10000 (max (ceil10 (5000 / m)) (if param s 0x211 = 0 then 0 else ceil10 ((vd + 1500) / m)))

/-- V_SHED(k) (R51), from the rounded V_FM and V_FL and not itself rounded (log 6). -/
def shedThreshold (s : State) (k : Fin 8) : Q :=
  s.ride.th.vFM + ((k.val : Q) + 1) * (s.ride.th.vFL - s.ride.th.vFM) / 8

/-- κ of a curtail order at a Ride voltage (R46). -/
def kappaAt (s : State) (k : Nat) (v : Q) : Q :=
  let d := s.ride.th.step
  let lo := s.ride.th.vEM + k * d
  if v ≤ lo then 1 else if v < lo + d then 1 - (v - lo) / d else 0

/-- φ of the battery law (R43). -/
def phiAt (s : State) (v : Q) : Q :=
  let t := s.ride.th
  let w := t.span
  if v < t.vFL then 1
  else if v ≤ t.vT then (if t.vT = t.vFL then 0 else (t.vT - v) / (t.vT - t.vFL))
  else if v < t.vT + w then -((v - t.vT) / w)
  else -1

/-- Curtail order in force: 7 during the sweep (R156), the key's, or the factory order of the port's class (R48). -/
def srcOrder (s : State) (p : Fin 8) : Nat :=
  let k := paramAt s 0x308 p.val
  if s.src[p].sweeping then 7
  else if k ≠ 8 then k.toNat
  else match srcClass s p with
    | 0 => 1 | 1 => 6 | 2 => 5 | _ => 1

def usbOrder (s : State) (p : Fin 4) : Nat :=
  let k := paramAt s 0x634 p.val
  if k = 8 then 0 else k.toNat

end Sys2Proof.Machine
end

