-- ==== Sys2Proof/Machine/Channels.lean ====
section
/-! DEFINITION. What every channel does, whatever its port: reference limiters, coefficient sets, Annealing triggers and
abandonment, changes of the phase set, starts and stops (chapters 3 to 5). -/

namespace Sys2Proof.Machine
open Sys2Proof

/-! ### Reference limiter and transition timer (R114 to R117) -/

def tSettle (s : State) : Q := (param s 0x213 : Q)

/-- A new target or rate in V/ms: the limiter goes on from its present output, and the timer starts again, held while the
channel does not switch (R115 to R117). -/
def setRef (c : Fin 16) (target rate : Q) (s : State) : State :=
  let d := (s.chan[c].refOut - target).abs
  let t : Q := if rate = 0 then tSettle s else d / (rate * 1000) + tSettle s
  onChan c (fun h => { h with refTarget := target, refRate := rate,
                              trans := { running := true, suspended := !switching s c, limit := t, settled := 0 } }) s

/-- A new rate alone: from the next ring period, over the distance that remains (R115); the timer restarts on it (R116). A
limiter that has arrived and settled has no transition to time. -/
def setRate (c : Fin 16) (rate : Q) (s : State) : State :=
  if s.chan[c].refRate = rate then s
  else if s.chan[c].trans.running then setRef c s.chan[c].refTarget rate s
  else onChan c (fun h => { h with refRate := rate }) s

/-- The source reference slew (key 0x0214), V/ms. -/
def sourceSlew (s : State) : Q := paramQ s 0x214 (1 / 100)

/-- The limiter's output after a time in s. -/
def slewed (a b rate t : Q) : Q :=
  let d := rate * 1000000 * t
  if a < b then min b (a + d) else max b (a - d)

/-! ### Frequency, crossover and coefficients -/

/-- fsw of the keys, Hz. -/
def keyFsw (s : State) (c : Fin 16) : Q := (chanKey s 0x220 c : Q) * 100

/-- P = round(6.4 × 10⁹ / fsw) (R78); in standby in steps of 2.5 ns, expressed in the same counts (R338). -/
def periodOf (s : State) (fsw : Q) : Nat :=
  if deepStandby s then 16 * (rnd (400000000 / fsw)).toNat else (rnd (6400000000 / fsw)).toNat

def ditherDepth (s : State) (c : Fin 16) : Q := (chanKey s 0x230 c : Q) / 400

/-- The crossover in force: the target, capped at fsw × (1 − dither depth) / 10 (R112), Hz. -/
def crossover (s : State) (c : Fin 16) : Q :=
  let cap := s.chan[c].fsw * (1 - ditherDepth s c) / 10
  let t := (chanKey s 0x2A0 c : Q) * 100
  if t = 0 then cap else min t cap

def annPolicy (s : State) (c : Fin 16) : Int := chanKey s 0x2E0 c

/-- Phase shunt, mΩ. -/
def phaseShunt (s : State) (c : Fin 16) : Q := (param s (limitKeys (chanLow s c)).1 : Q) / 100

/-- Full scale of a channel's phase sense, mA (R96). -/
def phaseFs (s : State) (c : Fin 16) : Q :=
  let r := phaseShunt s c
  if r = 0 then 0 else (senseFs (chanKey s 0x280 c) : Q) / r * 1000

/-- The nominal plant of the keys: L in nH, C in 0.1 µF, ESR in µΩ, G = 0 (R120). -/
def nominalPlant (s : State) (c : Fin 16) : Plant :=
  { l := (chanKey s 0x2C0 c : Q) * 100, rl := 0, c := (param s (0x2D0 + (chanLow s c).val) : Q) * 10,
    esr := (chanKey s 0x2F0 c : Q) * 100, g := 0, fc := 0, pm := 0, gm := 0 }

/-- Port voltage last measured for a channel, mV. -/
def portVolt (s : State) (c : Fin 16) : Q :=
  if h : c.val < 8 then (s.src[(⟨c.val, h⟩ : Fin 8)]).v.last
  else if c.val < 12 then s.usb[fin4 (c.val - 8)].vbus.last else s.bat[fin4 (c.val - 12)].vBank.last

/-- The mode of a start (R73). -/
def startMode (rho : Q) : PwmMode :=
  if 1125 / 1000 ≤ rho then .portLeg else if rho ≤ 89 / 100 then .rideLeg else .fourSwitch

/-- The mode for which a set is computed: the one in force, or the start mode of a channel not switching (R126). -/
def setMode (s : State) (c : Fin 16) : PwmMode :=
  if switching s c && !s.chan[c].fresh then s.chan[c].mode
  else startMode (if s.ride.v = 0 then 1 else portVolt s c / s.ride.v)

/-- The keys' limit of a channel in one direction, mA, before its engine has first written it (log 114). -/
def keyLimit (s : State) (c : Fin 16) (toRide : Bool) : Q :=
  if c.val < 8 then paramAt s 0x338 c.val * 10
  else if c.val < 12 then keyFwd s c
  else if toRide then paramAt s 0x40C (c.val - 12) * 10 else paramAt s 0x408 (c.val - 12) * 10

/-- I_max of R126, mA: the limit last written, unscaled (R142). -/
def iMax (s : State) (c : Fin 16) (toRide : Bool) : Q :=
  let w := written s.chan[c]
  let i := if toRide then w.pos else w.neg
  if i = 0 then keyLimit s c toRide else i

/-- f_RHPZ of one direction of flow: none where the modulating leg lies on the side away from it (R126 step 2). -/
def rhpzDir (s : State) (c : Fin 16) (l : Q) (toRide : Bool) : Option Q :=
  let m := setMode s c
  let boost := m = .fourSwitch || (if toRide then m = .rideLeg else m = .portLeg)
  let vOut := (if toRide then s.ride.v else portVolt s c) / 1000
  let i := iMax s c toRide / 1000
  let db : Q := if m = .fourSwitch then 1 / 5 else Config.boostDuty
  let n := nHealthy s c
  if boost && n ≠ 0 && i ≠ 0 && l ≠ 0 then
    some (vOut * (1 - db) ^ 2 / (Config.twoPi * (l / 1000000000 / n) * i))
  else none

def lowerOf : Option Q → Option Q → Option Q
  | none, b => b
  | a, none => a
  | some x, some y => some (min x y)

/-- f_RHPZ of a channel: both directions for a battery channel, the lower used (R126). -/
def fRhpz (s : State) (c : Fin 16) (l : Q) : Option Q :=
  if 12 ≤ c.val then lowerOf (rhpzDir s c l true) (rhpzDir s c l false) else rhpzDir s c l (!isUsbSource s c)

/-- Step 1 of R126: the crossover from the limits in force. -/
def recipeFc (s : State) (c : Fin 16) (l : Q) (quarter : Bool) : Q :=
  let f0 := if quarter then crossover s c / 4 else crossover s c
  match fRhpz s c l with
  | some f => min f0 (f / 3)
  | none => f0

/-- Magnitude (Ω) and phase (degrees) of the plant at f_c: node impedance, inner loop at fsw / 4, delay of R105 and
right-half-plane factor (R126 step 3; C in F, ESR in Ω, G in S). -/
def plantAt (c esr g : Q) (fz : Option Q) (fsw fc : Q) : Q × Q :=
  let w := Config.twoPi * fc
  let mag (x : Q) : Q := Config.root (1 + x * x)
  let zero := match fz with
    | some f => fc / f
    | none => 0
  let m := mag (w * esr * c) / Config.root (g * g + (w * c) * (w * c)) / mag (4 * fc / fsw) * (if fz.isSome then mag zero else 1)
  let node := Config.atanDeg (w * esr * c) - (if g = 0 then 90 else 90 - Config.atanDeg (g / (w * c)))
  (m, node - Config.atanDeg (4 * fc / fsw) - 360 * fc * (1 / (2 * fsw) + 120 / 1000000000) -
    (if fz.isSome then Config.atanDeg zero else 0))

/-- Steps 3 to 9 of R126 at one f_c: Kp, Ki, Kd, ω_p, φ_d and the phase margin that the set gives on the model. -/
def recipePass (c esr g : Q) (fz : Option Q) (fsw pm fc : Q) : Q × Q × Q × Q × Q × Q :=
  let w := Config.twoPi * fc
  let (m, th) := plantAt c esr g fz fsw fc
  let req := -180 + pm - th
  let lead := req + 57 / 8
  if 0 ≤ lead then
    let sn := Config.sinDeg lead
    let wz := w * Config.root ((1 - sn) / (1 + sn))
    let wp := w * w / wz
    let k := 1 / (m * Config.root (1 + 1 / 64) * Config.root (wp / wz))
    (k * (1 + w / 8 / wz), k * (w / 8), k / wz, wp, lead, pm)
  else
    let ri := min (Config.tanDeg (-req)) (1 / 2)
    let k := 1 / (m * Config.root (1 + ri * ri))
    let wp := Config.twoPi * fsw / 2
    (k, k * (w * ri), 0, wp, lead, 180 + th - Config.atanDeg ri - Config.atanDeg (w / wp))

/-- Step 10 of R126: f_c falls by 20 % until φ_d is at most 60° and the gain margin at least 6 dB; below fsw / 100 there is
no set. Its result is f_c, the set and its margins. -/
def recipe (c esr g : Q) (fz : Option Q) (fsw pm : Q) : Nat → Q → Option (Q × Q × Q × Q × Q × Q × Q)
  | 0, _ => none
  | n + 1, fc =>
    let (kp, ki, kd, wp, lead, margin) := recipePass c esr g fz fsw pm fc
    let gm := Config.gainMargin c esr g fz fsw (kp, ki, kd, wp)
    if lead ≤ 60 && 6 ≤ gm then some (fc, kp, ki, kd, wp, margin, gm)
    else if 4 / 5 * fc < fsw / 100 then none
    else recipe c esr g fz fsw pm n (4 / 5 * fc)

/-- The recipe on a plant of a channel; at most fsw / 10, f_c falls below fsw / 100 within 11 reductions. -/
def recipeFor (s : State) (c : Fin 16) (m : Plant) (quarter : Bool) : Option (Q × Q × Q × Q × Q × Q × Q) :=
  recipe (m.c / 10000000) (m.esr / 1000000) (m.g / 1000000) (fRhpz s c m.l) s.chan[c].fsw (chanKey s 0x2B0 c : Q) 16
    (recipeFc s c m.l quarter)

/-- The set of R126 for a plant, and the f_c and margins it predicts; a free set where the recipe ends without one. -/
def coefFor (s : State) (c : Fin 16) (m : Plant) (quarter : Bool) : Coef × Plant :=
  let (fc, kp, ki, kd, wp, pm, gm) := (recipeFor s c m quarter).getD
    (recipeFc s c m.l quarter, Config.lowSet m.c m.esr m.g s.chan[c].fsw (chanKey s 0x2B0 c : Q))
  (⟨kp, ki, kd, wp, Config.gainCode m.l (chanKey s 0x280 c) (phaseShunt s c)⟩, { m with fc := fc, pm := 10 * pm, gm := 10 * gm })

/-- A set, with its model and margins, written and committed: in force at the next ring boundary (R110, R112). -/
def putSet (c : Fin 16) (k : Coef × Plant) (origin : Fin 3) (s : State) : State :=
  onChan c (fun h => { h with coefPend := some k.1, plant := k.2, origin := origin, srcRole := isUsbSource s c }) s

/-- The nominal set of R120: a quarter of the crossover, or the whole under policy 2. -/
def nominalSet (c : Fin 16) (s : State) : State :=
  let quarter := annPolicy s c ≠ 2
  putSet c (coefFor s c (nominalPlant s c) quarter) (if quarter then 0 else 1) s

/-- The present plant model: the one identified, or the nominal (R111). -/
def presentPlant (s : State) (c : Fin 16) : Plant :=
  match s.chan[c].origin, s.chan[c].ann.cand.orElse (fun _ => s.chan[c].ann.model) with
  | 2, some m => m
  | _, _ => nominalPlant s c

/-! ### Annealing: trigger, abandonment, failure (R121, R124, R125, R127) -/

/-- Triggers in the order of R121; the events' codes are not given (log 19). -/
def trigNo : AnnTrigger → Nat
  | .firstStart => 0 | .keyChange => 1 | .phaseSet => 2 | .command => 3

def trigCode (t : AnnTrigger) : Byte := Config.eventCode 0x0210 (trigNo t)

def annRunning (a : AnnState) : Bool := a ≠ .idle && a ≠ .waiting

/-- A run ends early: perturbation off and dither restored; from Applying or Verifying the previous set comes back (R124, R129). -/
def annStop (next : AnnState) (h : Chan) : Chan :=
  let back := h.ann.state = .applying || h.ann.state = .verifying
  let g := match back, h.ann.prev with
    | true, some (k, m) => { h with coefPend := some k, plant := m, origin := h.ann.prevOrigin }
    | _, _ => h
  { g with ditherOff := false,
           ann := { g.ann with state := next, pert := 0, cand := none, prev := none, winT := 0, winLo := none, winHi := none } }

/-- A condition of R122 fails now: its 100 ms start anew. -/
def annBreak (c : Fin 16) (s : State) : State := onChan c (fun h => { h with ann := { h.ann with breakTb := s.tb } }) s

/-- A run ends with no event, and the set last committed stays (R129: its store engine has failed). -/
def annDrop (h : Chan) : Chan :=
  if annRunning h.ann.state then
    { h with ditherOff := false, ann := { h.ann with state := .idle, pert := 0, cand := none, prev := none, winT := 0, winLo := none, winHi := none } }
  else h

/-- R124: a run in Preparing, Injecting, Applying or Verifying is abandoned and waits again. -/
def annAbandon (c : Fin 16) (s : State) : State :=
  onChan c (fun h => if annRunning h.ann.state && h.ann.state ≠ .fitting then annStop .waiting h else h) (annBreak c s)

/-- A change of fsw or of the phase set and a VDRV under-voltage abandon a run in Fitting too (R100, R124, R129). -/
def annDiscard (c : Fin 16) (s : State) : State :=
  onChan c (fun h => if annRunning h.ann.state then annStop .waiting h else h) (annBreak c s)

/-- A hand-over begins on a port: a battery channel's run is abandoned in the same period, and the 100 ms of every channel start
anew (R122, R129). -/
def annHandover (s : State) : State :=
  each ((List.finRange 16).filter fun c => chanLow s c = c) (fun c => if 12 ≤ c.val then annAbandon c else annBreak c) s

/-- A new fsw, with coefficients committed in the same frame; a run of Annealing is abandoned (R80, R111, R124). -/
def writeFsw (c : Fin 16) (f : Q) (s : State) : State :=
  if s.chan[c].fswPend.getD s.chan[c].fsw = f then s
  else
    let s1 := annDiscard c s
    let k := coefFor (onChan c (fun h => { h with fsw := f }) s1) c (presentPlant s1 c) (s1.chan[c].origin = 0)
    onChan c (fun h => { h with fswPend := some f }) (putSet c k s1.chan[c].origin s1)

/-- The policies that act on a trigger (table of R121). -/
def policyActs (pol : Int) : AnnTrigger → Bool
  | .firstStart => pol = 0
  | .command => true
  | _ => pol = 0 || pol = 1

/-- A trigger: a run in progress is abandoned and a new one queued (R121). -/
def annTrigger (c : Fin 16) (t : AnnTrigger) (s : State) : State :=
  if policyActs (annPolicy s c) t then
    onChan c (fun h =>
      let g := if annRunning h.ann.state then annStop .waiting h else h
      { g with ann := { g.ann with state := .waiting, trigger := t, trigTb := s.tb, deferTb := s.tb,
                                    amp := paramQ s 0x212 (1 / 10), retried := false } }) s
  else s

/-- A run fails: the Annealing-failed Note, cause 0 fit or 1 verification; the previous set is kept or recommitted (R125, R127). -/
def annFail (c : Fin 16) (cause : Nat) (s : State) : State :=
  reportUnit 0x1A 5 c.val cause 0 (onChan c (annStop .idle) s)

/-- A current limit or a hiccup: a run in preparation or injection is abandoned, a verification fails (R122, R124, R127). -/
def annLimit (c : Fin 16) (s : State) : State :=
  if s.chan[c].ann.state = .verifying then annFail c 1 (annBreak c s) else annAbandon c s

/-! ### The set of healthy phases (R142) -/

/-- R142 steps 6 and 7: the consecutive count is zeroed and Annealing triggered; a nominal set in use is recomputed (R120).
The clamps scale by `phaseScale`, and the offsets are recomputed at the next boundary. -/
def reconfigure (c : Fin 16) (s : State) : State :=
  let l := chanLow s c
  let s1 := onChan l (fun h => { h with limCount := 0 }) (annDiscard l s)
  let s2 := if s1.chan[l].origin = 2 then s1 else nominalSet l s1
  annTrigger l .phaseSet s2

/-- A phase out of service: its counts are cleared for a later re-admission. -/
def phaseOut (p : Phase) : Phase :=
  { p with healthy := false, reach := 0, ripple := 0, openIn := 0, gate := 0, delivery := 0, agreement := 0,
           probation := 0, rejoin := false, peakNow := false, gates := [], refreshAt := none }

/-- R140: a failed phase, its switches off; the last of its ring stops the channel, and Annealing is triggered all the same
(R121). -/
def failPhase (k : Fin 28) (cause : Nat) (s : State) : State :=
  let c := chanLow s (chanOfPhase k)
  let s1 := reportUnit 0x10 6 k.val cause 0 (onPhase k phaseOut s)
  if nHealthy s1 c = 0 then
    let stop (d : Fin 16) : State → State := onChan d (fun h => addStop .lastPhase
      { h with hic := .off, limCount := 0, trans := { h.trans with suspended := true } })
    annTrigger c .phaseSet (annDiscard c (each (chanGang s1 c) stop s1))
  else reconfigure c s1

/-- A failed phase joins again, with its probation of 1024 periods (R143). -/
def rejoinPhase (k : Fin 28) (s : State) : State :=
  let c := chanLow s (chanOfPhase k)
  let s1 := onPhase k (fun p => { p with healthy := true, rejoin := false, probation := 1025 }) s
  reconfigure c (unstopGang .lastPhase c s1)

/-- Phases that wait to join a ring. -/
def waitingPhases (s : State) (c : Fin 16) : List (Fin 28) := (gangPhases s c).filter fun k => s.phase[k].rejoin

/-! ### Starts and stops -/

/-- The correction k of a source port starts again at 1 at every start of its channel (R154). -/
def resetK (c : Fin 16) (s : State) : State :=
  if c.val < 8 then onSrc (fin8 c.val) (fun x => { x with kCorr := 1 }) s else s

/-- A start of a channel: waiting phases join, the first start of the boot triggers Annealing, and a USB channel whose power role
has changed computes its nominal set anew (R121, R126, R143, R144). -/
def openChan (c : Fin 16) (soft : Bool) (s : State) : State :=
  let s1 := each (waitingPhases s c) rejoinPhase s
  let first := !s1.chan[c].started
  let s2 := resetK c (startChan c soft s1)
  let s3 := if s2.chan[c].origin ≠ 2 && s2.chan[c].srcRole ≠ isUsbSource s2 c then nominalSet c s2 else s2
  if first then annTrigger c .firstStart s3 else s3

/-- A start that the channel's owner calls for: in Off or Latched the channel starts when that state is left (R135). -/
def beginChan (c : Fin 16) (s : State) : State :=
  if s.chan[c].hic = .off || s.chan[c].hic = .latched then resetK c (onChan c (fun h => { h with enabled := true }) s)
  else openChan c false s

/-- Switching resumes: the limiter stands at the measured voltage and its timer restarts on what remains (R117); a battery channel
has no limiter. -/
def placeRef (c : Fin 16) (measured : Q) (s : State) : State :=
  if c.val < 12 then
    let s1 := onChan c (fun h => { h with refOut := measured }) s
    setRef c s1.chan[c].refTarget s1.chan[c].refRate s1
  else s

/-- Soft-start after an Off or a latch (R109, R117, R135). -/
def resumeChan (c : Fin 16) (measured : Q) (s : State) : State := placeRef c measured (openChan c true s)

/-- Soft-start, or its wait for the last stop to be released (table "Hiccup states"); a channel that its owner has stopped meanwhile
only leaves Off. -/
def softStart (c : Fin 16) (measured : Q) (s : State) : State :=
  if !s.chan[c].enabled then onChan c (fun h => { h with hic := .switching, waits := false }) s
  else if released s c then resumeChan c measured s else onChan c (fun h => { h with waits := true }) s

/-- Switching stops by a stop or a command; a run in progress is abandoned. -/
def haltChan (c : Fin 16) (s : State) : State := annAbandon c (stopChan c s)

/-- A protection stop asserted on a channel's gang: a run is abandoned and the transition timer suspended where switching ends
(R117, R129). -/
def assertStop (t : Stop) (c : Fin 16) (s : State) : State :=
  let s1 := stopGang t c s
  let l := chanLow s c
  onChan l (fun h => { h with trans := { h.trans with suspended := h.trans.suspended || bothStopped h } }) (annAbandon l s1)

/-- A channel that its stops alone keep from switching: it would switch, or waits for the last of them to soft-start. -/
def stoppedOnly (h : Chan) : Bool := !h.offByCmd && (h.waits || (h.enabled && (h.hic = .switching || h.hic = .softStart)))

/-- What the release of the last stop starts: Soft-start where it waits for that (R135, R144); else the loop continues from its
output (R108), with the limiter at the measured voltage (R117). -/
def goOn (c : Fin 16) (s : State) : State :=
  if s.chan[c].waits then resumeChan c (portVolt s c) s else placeRef c (portVolt s c) s

/-- A stop released (R18). -/
def releaseStop (t : Stop) (c : Fin 16) (s : State) : State :=
  let s1 := unstopGang t c s
  let l := chanLow s c
  if !released s l && released s1 l && stoppedOnly s1.chan[l] then goOn l s1 else s1

/-! ### What an engine rewrites in every frame (R30) -/

/-- The hardware values that the keys give (R89, R92, R99, R132, R148); the blanking time is at least V_swing / (dV/dt) + 20 ns for
the slowest profile. -/
def keyLims (s : State) (c : Fin 16) (order : Nat) (l : Lims) : Lims :=
  let prof := BitVec.ofInt 16 (chanKey s 0x250 c)
  { l with pkFwd := keyFwd s c, pkRev := keyRev s c, nHic := (param s 0x215).toNat, nRet := (param s 0x218).toNat,
           tSs := (param s 0x217 : Q), order := order,
           blank := max ((chanKey s 0x290 c : Q) * 5 / 2) (max (portVolt s c) s.ride.v / 1000 / slowest prof + 20),
           dtMin := (chanKey s 0x260 c : Q) * 5 / 8, dtMax := (chanKey s 0x270 c : Q) * 5 / 8, profiles := prof }

/-- The curtail order of a channel as its engine writes it: 0 for a channel that has none. -/
def chanOrder (s : State) (c : Fin 16) : Nat :=
  if c.val < 8 then srcOrder s (fin8 c.val) else if c.val < 12 then usbOrder s (fin4 (c.val - 8)) else 0

/-- A channel's limits written anew from its keys. -/
def rewriteChan (c : Fin 16) (s : State) : State := onChan c (writeLims (keyLims s c (chanOrder s c))) s

def batSat (p : Fin 4) (num : Nat) (hit : Bool) (s : State) : State := satEvent 0x040F p.val 3 num hit s

/-- Rest hold cleared on the gang's ring. -/
def clearRest (p : Fin 4) (s : State) : State :=
  onBat p (fun x => { x with resting := false })
    (onChan (chanOfBat p) (fun h => { h with restHold := false, restDue := false }) s)

/-- A rest disturbed (R194, R212): its capture is discarded and counted, and the next pulse begins. -/
def disturbRest (p : Fin 4) (s : State) : State :=
  let hit := s.bat[p].cDisturb.hits
  batSat p 3 hit (onBat p (fun x => { x with cDisturb := x.cDisturb.bump, fitDue := false }) (clearRest p s))

/-- A rest in progress on a channel is disturbed. -/
def disturbChan (c : Fin 16) (s : State) : State :=
  each ((List.finRange 4).filter fun p => chanOfBat p = c && s.bat[p].resting) disturbRest s

/-- The hiccup counter and state of a hiccup (R135, R138): Off with the retry counter advanced, or Latched; a rest in
progress is disturbed (R212). -/
def hiccup (c : Fin 16) (s : State) : State :=
  let h := s.chan[c]
  let latch := decide (h.lim.nRet ≤ h.retry)
  let cnt := h.hicCnt.bump
  let s1 := annLimit c s
  let s2 := onChan c (fun g => { g with hic := if latch then .latched else .off, retry := if latch then g.retry else g.retry + 1,
                                        hicCnt := cnt, limCount := 0, waits := false, u := 0, uOut := 0, integ := 0, fresh := true, ramp := 0,
                                        trans := { g.trans with suspended := true } }) s1
  let s3 := if latch then stopGang .latch c s2 else s2
  reportUnit 0x11 5 c.val 0 cnt.n.toNat (disturbChan c s3)

end Sys2Proof.Machine
end

