-- ==== Sys2Proof/Machine/RideBus.lean ====
section
/-! DEFINITION. The Ride's discrete actions and the Taproot path (chapter 2). Each event row asserts that its time or
analogue condition has come about; the meaning checks the discrete state and does nothing where it does not fit (log 13). -/

namespace Sys2Proof.Machine
open Sys2Proof

/-! ### Sapling's selector and the VDRV regulator (R97, R540, R541) -/

/-- Voltage of a port at the selector, mV: source ports first, then battery ports. -/
def selVolt (s : State) (i : Fin 12) : Q := if i.val < 8 then s.src[fin8 i.val].v.last else s.bat[fin4 (i.val - 8)].vBank.last

/-- The highest port. -/
def highestPort (s : State) : Fin 12 := (List.finRange 12).foldl (fun b i => if selVolt s b < selVolt s i then i else b) 0

/-- The selector goes over to a port at least 0.3 V above the one in use. -/
def selectPort (s : State) : State :=
  let b := highestPort s
  match s.clk.selPort with
  | some i => if selVolt s i + 300 ≤ selVolt s b then { s with clk := { s.clk with selPort := some b } } else s
  | none => { s with clk := { s.clk with selPort := some b } }

/-- The regulator's feed at a Ride voltage: off by key 0x0211 at 0 and above 66 V; below its setpoint plus 1.5 V the dead-Ride mode. -/
def vdrvFeed (s : State) (v : Q) : VdrvFeed :=
  let set := paramQ s 0x211 500
  if set = 0 || 66000 < v then .off else if v < set + 1500 then .selector else .ride

/-- The regulator follows the Ride. -/
def regulate (v : Q) (s : State) : State := { s with clk := { s.clk with feed := vdrvFeed s v } }

/-- Current limit of the regulator, mA. -/
def regLimit (s : State) : Q :=
  match s.clk.feed with
  | .off => 0 | .ride => 150 | .selector => 40

/-- P_REG, mW, at a gate-drive current in mA and VDRV in mV: 0 while the regulator is off. -/
def regLoss (s : State) (vDrv i : Q) : Q :=
  match s.clk.feed with
  | .off => 0
  | .ride => (s.ride.v - vDrv) * i / 1000
  | .selector => (s.clk.selPort.elim 0 (selVolt s) - vDrv) * i / 1000

/-! ### Ride over-voltage and tiers -/

/-- The channels that the Ride's over-voltage stops: sources and USB sinks (R49); their transition timers rest (R117). -/
def feeders (s : State) : List (Fin 16) := (List.finRange 16).filter fun c => feedsRide s c

/-- R49: delivery stops until the Ride has stayed below V_EM for 10 ms; counted, a Note-class fault, and its event. -/
def rideOv (peak : Q) (s : State) : State :=
  let s1 := regulate peak { s with ride := { s.ride with ovStop := true, ovCnt := s.ride.ovCnt.bump } }
  let s2 := each (feeders s1) (fun c => onChan c (fun h => { h with fBroken := true, trans := { h.trans with suspended := true } })) s1
  pushEvent 0x0206 (quantU 2 (peak / 10)) (reportUnit 0x12 0 0 0 (rnd (peak / 10)) s2)

def execRideOvervoltage (peak : Q) (s : State) : Host.Outcome State Fault Refusal :=
  .next (whenS (s.clk.vcc && !s.ride.ovStop) (rideOv peak) s)

/-- The release: the channels go on from their outputs, their limiters from the measured voltages (R49, R117; log 115). -/
def execRideOvervoltageRelease (s : State) : Host.Outcome State Fault Refusal :=
  .next (if s.ride.ovStop then
      let s1 := { s with ride := { s.ride with ovStop := false } }
      each ((feeders s1).filter fun c => switching s1 c) (fun c => placeRef c (portVolt s c)) s1
    else s)

/-- R50: the reported tier changes after the new tier has held for 10 ms; the event gives the TB of the crossing. -/
def execTierChange (tier : Fin 5) (s : State) : Host.Outcome State Fault Refusal :=
  .next (if tier = s.ride.tier then s
    else pushEvent 0x0201 ([byte s.ride.tier.val, byte tier.val] ++ le64 (s.tb - 1000000))
      { s with ride := { s.ride with tier := tier } })

/-! ### Taproot -/

/-- Taproot may act: a port is named on the wires and enabled, PROT runs, and the state is not ship mode or the Clearing
reset (R22, R62, R63). Disabled means here the enable bit of WIRE word 3 alone: a port that R464 disables for a marginal chemistry
or CPS field still serves Taproot, which R62 and R464 leave open (log 117). -/
def tapAllowed (s : State) : Bool :=
  s.clk.vcc && s.dev ≠ .ship && s.dev ≠ .clearing && s.dev ≠ .unpowered &&
  (match tapPort s with | some p => s.wires.words[3].getLsbD (12 + p.val) | none => false)

/-- The start of the PROT domain: armed if allowed, otherwise off (R63). -/
def tapArm (s : State) : State :=
  { s with tap := { s.tap with state := if tapAllowed s then .armed else .off, active := false, blocking := false } }

def tapEngaged (s : State) : Bool := s.tap.state = .fast || s.tap.state = .cold

def tapMode (s : State) : Byte := if s.tap.state = .cold then 1 else 0

def tapEvent (code : Half) (vBat : Q) (s : State) : State := pushEvent code (tapMode s :: quantU 2 (vBat / 10)) s

/-- TAP_UV in force at Warden, mV; 0 is off (R67, R68). -/
def tapUv (s : State) : Q := (wardenKey s 0x20E : Q) * 10

/-- The frame of the Taproot port's ring is not evaluated by the bank checks (R141). -/
def tapBreaks (s : State) : State :=
  match tapPort s with
  | some p => onChan (chanOfBat p) (fun h => { h with fBroken := true }) s
  | none => s

/-- A new TAP_UV written: with 0 the cut-off is off, and no hold of it remains (R67, R68). -/
def tapUvWritten (s : State) : State := if tapUv s = 0 then { s with tap := { s.tap with uvHold := false } } else s

/-- R63, R67: the Ride below V_FM engages Taproot, fast from 0.5 × V_FM up, cold below. -/
def execTaprootEngage (vRide vBat : Q) (s : State) : Host.Outcome State Fault Refusal :=
  .next (if s.tap.state = .armed && tapAllowed s && decide (vRide < s.ride.th.vFM) &&
            (tapUv s = 0 || (!s.tap.uvHold && decide (tapUv s ≤ vBat))) then
      let cold := decide (vRide < s.ride.th.vFM / 2)
      let s1 := tapBreaks s
      wantRunning 3 (tapEvent 0x0207 vBat
        { s1 with tap := { s1.tap with state := if cold then .cold else .fast, active := !cold, blocking := false, vBat := vBat } })
    else s)

/-- R66: the ramp ends when the drop has fallen to TAP_OC; the ideal diode is then active. -/
def execTaprootColdRampEnd (s : State) : Host.Outcome State Fault Refusal :=
  .next (if s.tap.state = .cold then { s with tap := { s.tap with active := true } } else s)

/-- R64: the Ride more than 5 mV above TAP_BAT turns the gate off. -/
def execTaprootBlock (s : State) : Host.Outcome State Fault Refusal :=
  .next (if tapEngaged s && s.tap.active then { s with tap := { s.tap with blocking := true } } else s)

/-- R65. -/
def execTaprootRelease (vBat : Q) (s : State) : Host.Outcome State Fault Refusal :=
  .next (if tapEngaged s && s.tap.active && s.tap.blocking then
      let s1 := tapEvent 0x0208 vBat s
      { s1 with tap := { s1.tap with state := .armed, active := false, blocking := false, vBat := vBat } }
    else s)

/-- R66: a trip in either engaged state, by the drop while active or by the overrun of a cold ramp. -/
def execTaprootOvercurrent (vBat : Q) (s : State) : Host.Outcome State Fault Refusal :=
  .next (if tapEngaged s then
      let s1 := tapEvent 0x0209 vBat (reportUnit 0x13 0 0 0 (rnd (vBat / 10)) s)
      { s1 with tap := { s1.tap with state := .tripped, active := false, blocking := false, vBat := vBat,
                                     trips := s1.tap.trips.bump } }
    else s)

/-- R63: one second in Tripped. -/
def execTaprootRearm (s : State) : Host.Outcome State Fault Refusal :=
  .next (if s.tap.state = .tripped then { s with tap := { s.tap with state := .armed } } else s)

/-- R67: below TAP_UV Taproot returns to Armed and may not engage until TAP_BAT exceeds TAP_UV + 200 mV. -/
def execTaprootUndervoltage (below : Bool) (s : State) : Host.Outcome State Fault Refusal :=
  .next (if below then
      if tapUv s = 0 then s
      else { s with tap := { s.tap with uvHold := true, state := if tapEngaged s then .armed else s.tap.state,
                                        active := false, blocking := false } }
    else { s with tap := { s.tap with uvHold := false } })

end Sys2Proof.Machine
end

