-- ==== Sys2Proof/Machine/Sources.lean ====
section
/-! DEFINITION. The source ports: presence, qualification, classification, input limits, maximum-power tracking and wave
matching (chapter 6), and the hand-over of R54 to R57 as a source port sees it. -/

namespace Sys2Proof.Machine
open Sys2Proof

/-! ### Parameters of a port -/

def vPres (s : State) (p : Fin 8) : Q := (paramAt s 0x320 p.val : Q) * 10
def vWd (s : State) (p : Fin 8) : Q := (paramAt s 0x328 p.val : Q) * 10
def vQmax (s : State) (p : Fin 8) : Q := (paramAt s 0x330 p.val : Q) * 10
def iInMax (s : State) (p : Fin 8) : Q := (paramAt s 0x338 p.val : Q) * 10
/-- P_MAX in mW; none where the key is 0. -/
def pMax (s : State) (p : Fin 8) : Option Q := let k := paramAt s 0x340 p.val; if k = 0 then none else some (k * 1000)
def vWaveRun (s : State) (p : Fin 8) : Q := (paramAt s 0x368 p.val : Q) * 10
def trackOption (s : State) (p : Fin 8) (b : Nat) : Bool := (paramAt s 0x358 p.val).toNat.testBit b
def poFrames (s : State) : Nat := (param s 0x360).toNat
def poStep (s : State) : Q := (param s 0x361 : Q) / 2000
def pIdle (s : State) : Q := (param s 0x363 : Q) * 10

/-- Power in mW of mV and mA. -/
def mwOf (v i : Q) : Q := v * i / 1000

/-- The engine runs the port: enabled on the wires, of a class other than 0, its engine up, and begun (R32, R35, R146, R516). -/
def srcActive (s : State) (p : Fin 8) : Bool :=
  srcEn s p && paramAt s 0x300 p.val ≠ 0 && engineUp s (srcEngine p) && deviceRuns s && !s.mbox.portsDue

/-- Annealing holds the operating point, from Preparing to Verifying (R175). -/
def annHolds (s : State) (p : Fin 8) : Bool := annRunning s.chan[chanOfSrc p].ann.state

/-- Curtailment, input limiting or Annealing suspend tracking (R159, R170, R175). -/
def suspended (s : State) (p : Fin 8) : Bool :=
  s.chan[chanOfSrc p].kappa < 1 || s.src[p].bindI || s.src[p].bindP || annHolds s p

/-! ### Events -/

def srcSat (p : Fin 8) (num : Nat) (hit : Bool) (s : State) : State := satEvent 0x030A p.val 1 num hit s

def vField (v : Q) : List Byte := quantU 2 (v / 10)

/-! ### Input limit (R154) -/

/-- min(I_IN_MAX × V_PORT, P_MAX) in mW. -/
def inputPower (s : State) (p : Fin 8) (v : Q) : Q :=
  let a := mwOf (iInMax s p) v
  match pMax s p with
  | some b => min a b
  | none => a

/-- I_CL = k × min(…) / V_RIDE, in mA, times θ of the channel's thermal register (R154, R318). -/
def inputClamp (s : State) (p : Fin 8) : Q :=
  let vr := s.ride.meas.mean
  if vr = 0 then 0 else s.chan[chanOfSrc p].theta * (s.src[p].kCorr * inputPower s p s.src[p].v.mean * 1000 / vr)

def writeClamp (c : Fin 16) (i : Q) (s : State) : State := writeClamps c i 0 s

/-- The output clamp of 1 % of I_IN_MAX in the sweep (R156): the model takes 1 % of the input current as the Ride-side current at the
frame's voltages, as R154 converts a limit, and writes it in every frame (log 119). -/
def lightClamp (s : State) (p : Fin 8) : Q :=
  if s.ride.meas.mean = 0 then 0 else iInMax s p / 100 * s.src[p].v.mean / s.ride.meas.mean

/-! ### Withdrawal and hand-over (R54 to R57) -/

/-- A withdrawal of a source port: the channel stops, the hand-over begins, a lock is kept, a sweep is abandoned. -/
def withdrawSrc (p : Fin 8) (s : State) : State :=
  let x := s.src[p]
  let s1 := haltChan (chanOfSrc p) s
  let s2 := onSrc p (fun x => { x with
    path := .withdrawing, handover := true, present := false, sweeping := false, track := .none, prev := .none,
    kept := if x.swell.isSome then x.swell else x.kept, keptTb := if x.swell.isSome then s.tb else x.keptTb, swell := none,
    trial := false, trialTb := none, lockDue := none, pathTb := s.tb,
    cWithdraw := x.cWithdraw.bump }) s1
  srcSat p 0 x.cWithdraw.hits (pushEvent 0x0202 [0, byte p.val] (annHandover s2))

def srcWithdrawable (s : State) (p : Fin 8) : Bool :=
  let x := s.src[p]
  x.path = .ramping || x.path = .delivering || (x.path = .qualifying && x.sweeping)

/-- The hand-over ends: Debounce if the input is present, else Absent. -/
def srcHandoverEnd (p : Fin 8) (present : Bool) (s : State) : State :=
  let ok := present && !s.src[p].blocked && srcActive s p
  pushEvent 0x0203 [0, byte p.val]
    (onSrc p (fun x => { x with handover := false, present := present, path := if ok then .debounce else .absent, pathTb := s.tb }) s)

/-! ### Presence and qualification -/

/-- R149: present for 1 ms; a withdrawn or blocked port's input is ignored (R56, R152, R158). -/
def execInputPresent (port : Fin 8) (s : State) : Host.Outcome State Fault Refusal :=
  let x := s.src[port]
  .next (if srcActive s port && x.path = .absent && !x.handover && !x.blocked then
      wantRunning 1 (onSrc port (fun x => { x with present := true, path := .debounce, pathTb := s.tb }) s)
    else s)

/-- R149: from Debounce to Absent; in Qualifying and later the port goes to Withdrawing. -/
def execInputLost (port : Fin 8) (s : State) : Host.Outcome State Fault Refusal :=
  .next (match s.src[port].path with
    | .debounce => onSrc port (fun x => { x with present := false, path := .absent }) s
    | .qualifying | .ramping | .delivering => withdrawSrc port s
    | .absent | .withdrawing => onSrc port (fun x => { x with present := false }) s)

/-- Qualifying begins, without an offset of an earlier qualification (R151). -/
def enterQualifying (p : Fin 8) (s : State) : State :=
  onSrc p (fun x => { x with path := .qualifying, pathTb := s.tb, qual := {} })
    (each (phasesOf (chanOfSrc p)) (fun k => onPhase k (fun f => { f with offset := 0 })) s)

/-- The observation of the sweep: the channel switches under the light clamp, at curtail order 7 (R156 step 1). -/
def beginSweep (p : Fin 8) (s : State) : State :=
  let c := chanOfSrc p
  let s1 := onSrc p (fun x => { x with sweeping := true, sweepCut := false, swp := { tb := s.tb }, vOc := 0 }) s
  setRef c (vWd s1 p + 1000) (sourceSlew s1)
    (rewriteChan c (writeClamp c (lightClamp s1 p) (onChan c (fun h => { h with refOut := s1.src[p].v.last }) (beginChan c s1))))

/-- R57, R151, R156: 50 ms of debounce over, qualification begins, or the sweep of a port of class 4 not classified in this boot. -/
def execDebounceComplete (port : Fin 8) (s : State) : Host.Outcome State Fault Refusal :=
  .next (if s.src[port].path = .debounce && srcActive s port && decide (5000000 ≤ (s.tb - s.src[port].pathTb).toNat) then
      let s1 := enterQualifying port s
      if srcClass s port = 0 then beginSweep port s1 else s1
    else s)

/-- A check of R151 by its number; "undetermined" has none (log 19). -/
def checkCode (check : Nat) : Byte := if check = 0 then Config.eventCode 0x0302 0 else byte check

/-- R152, R158: a failed qualification, its check (0: undetermined), and the block it may bring. -/
def qualFail (p : Fin 8) (check : Nat) (s : State) : State :=
  let x := s.src[p]
  let s1 := onSrc p (fun x => { x with
    path := .absent, present := false, sweeping := false, qualFails := x.qualFails + 1, pathTb := s.tb,
    blocked := decide (2 ≤ x.qualFails) || check = 0, blockTb := s.tb, cQualFail := x.cQualFail.bump }) (haltChan (chanOfSrc p) s)
  srcSat p 1 x.cQualFail.hits (pushEvent 0x0302 ([byte p.val, checkCode check] ++ le 2 (x.qualFails + 1 : Nat)) s1)

/-- The ramp-in target of the table "Source classes". -/
def rampTarget (s : State) (p : Fin 8) : Q :=
  let x := s.src[p]
  match srcClass s p with
  | 1 => match x.ratio with
    | some r => if 7 / 10 ≤ r ∧ r ≤ 9 / 10 then r * x.vOc else 8 / 10 * x.vOc
    | none => 8 / 10 * x.vOc
  | 2 => 8 / 10 * x.vOc
  | _ => if paramAt s 0x348 p.val = 0 then x.dcFloor else (paramAt s 0x348 p.val : Q) * 10

/-- R153: the channel starts, its clamp ramps over t_ramp and V_IN_REF moves from the measured voltage. -/
def enterRamping (p : Fin 8) (s : State) : State :=
  let c := chanOfSrc p
  let s1 := onSrc p (fun x => { x with path := .ramping, sweeping := false, qualFails := 0, track := .none, prev := .none,
                                       pathTb := s.tb, kCorr := 1, bindI := false, bindP := false }) s
  let s2 := onChan c (fun h => { h with refOut := s1.src[p].v.last, ramp := 0, rampTime := (paramAt s1 0x350 p.val : Q) })
    (beginChan c s1)
  setRef c (rampTarget s2 p) (sourceSlew s2) (writeClamp c (inputClamp s2 p) s2)

def qualified (p : Fin 8) (s : State) : State :=
  pushEvent 0x0301 ([byte p.val, byte (srcClass s p)] ++ vField s.src[p].vOc) (enterRamping p s)

/-- Check 1 and check 3 on the samples of the frame that ends (R151). -/
def frameCheck (s : State) (p : Fin 8) (x : Src) : Option (Fin 5) :=
  let out (lo hi : Q) (a : Acc) : Bool := a.min.elim false (fun m => decide (m < lo)) || a.max.elim false (fun m => decide (hi < m))
  let fs := phaseFs s (chanOfSrc p) / 50
  if out (vPres s p) (vQmax s p) x.v then some 1 else if out (-fs) fs x.i then some 3 else none

/-- A frame of a qualification, of the samples it ends with: the 250 ms start once VDRV is above its rising threshold (R151). -/
def qualFrame (s : State) (p : Fin 8) (x : Src) : Src :=
  if x.path = .qualifying && (s.clk.vdrvOk || x.qual.tb.isSome) then
    let bad := x.qual.bad.orElse fun _ => frameCheck s p x
    { x with qual := { tb := some (x.qual.tb.getD s.tb), bad := bad,
                       v := if x.v.n = 0 then x.qual.v else x.qual.v.add (x.v.sum / x.v.n),
                       i := if x.i.n = 0 then x.qual.i else x.qual.i.add (x.i.sum / x.i.n) } }
  else x

/-- The span of what an accumulator holds. -/
def accSpan (a : Acc) : Q := a.max.getD 0 - a.min.getD 0

/-- The lowest check of R151 that the 250 ms break: 1 and 3 in some frame, 2 for solar and DC over the frame means, 4 for a DC port
with its floor set; check 1 fails where nothing was measured. -/
def qualVerdict (s : State) (p : Fin 8) : Option (Fin 5) :=
  let q := s.src[p].qual
  let cls := srcClass s p
  let dcMin := paramAt s 0x348 p.val * 10
  if q.bad = some 1 || q.v.n = 0 then some 1
  else if (cls = 1 || cls = 3) && decide (accMean q.v / 10 < accSpan q.v) then some 2
  else if q.bad = some 3 then some 3
  else if cls = 3 && dcMin ≠ 0 && decide (accMean q.v < dcMin + 500) then some 4
  else none

/-- The 250 ms have passed. -/
def qualOver (s : State) (p : Fin 8) : Bool :=
  s.src[p].qual.tb.elim false fun t => decide (25000000 ≤ (s.tb - t).toNat)

/-- R151: V_OC, the sense offset and the DC floor are stored; the port ramps in, or fails with its check. -/
def execQualificationComplete (port : Fin 8) (s : State) : Host.Outcome State Fault Refusal :=
  let q := s.src[port].qual
  .next (if s.src[port].path = .qualifying && !s.src[port].sweeping && qualOver s port then
      match qualVerdict s port with
      | some k => qualFail port k.val s
      | none =>
        let s1 := each (phasesOf (chanOfSrc port)) (fun k => onPhase k (fun p => { p with offset := accMean q.i })) s
        qualified port (onSrc port (fun x => { x with vOc := q.v.max.getD 0, dcFloor := 9 / 10 * accMean q.v }) s1)
    else s)

/-- R152, R158: 60 s of a block are over, or 600 s after five undetermined results in a row. -/
def execQualificationBlockEnd (port : Fin 8) (s : State) : Host.Outcome State Fault Refusal :=
  let x := s.src[port]
  .next (if decide ((if 5 ≤ x.undet then 60000000000 else 6000000000) ≤ (s.tb - x.blockTb).toNat) then
      onSrc port (fun x => { x with blocked := false }) s
    else s)

/-! ### Classification (R156 to R158) -/

/-- The floor of the sweep, and the lower bound of R161. -/
def lowBound (s : State) (p : Fin 8) : Q := max (s.src[p].vOc / 2) (vWd s p + 1000)

/-- A frame of the observation: V_OC, and the falls and recoveries of V_PORT that show a wave generator (R156, R157). -/
def observeFrame (x : Src) : Src :=
  let v := x.v.mean
  let w := x.swp
  let w1 := if w.fell then (if 95 / 100 * w.peak ≤ v then { w with fell := false, cycles := w.cycles + 1, peak := v } else w)
    else if w.peak < v then { w with peak := v }
    else if v < 80 / 100 * w.peak then { w with fell := true } else w
  { x with vOc := max x.vOc v, swp := w1 }

/-- A frame of the down-sweep: a point at each of 64 equal steps of V_IN_REF from V_OC to the floor, the deviation and the binding
clamp; κ < 1 or a hiccup stops it (R156). -/
def downFrame (s : State) (p : Fin 8) (binds : Bool) (x : Src) : Src :=
  let h := s.chan[chanOfSrc p]
  let w := x.swp
  let fl := lowBound s p
  let next := x.vOc - (w.pts.length : Q) * (x.vOc - fl) / 63
  let pts := if h.refOut ≤ next && w.pts.length < 64 then w.pts ++ [(x.v.mean, x.i.mean)] else w.pts
  let dev := if x.vOc = 0 then 0 else (x.v.mean - x.vOc).abs / x.vOc
  { x with swp := { w with pts := pts, maxDev := max w.maxDev dev, bound := w.bound || (binds && decide (95 / 100 * x.vOc ≤ h.refOut)),
                           stopped := decide (h.kappa < 1) || h.hic ≠ .switching } }

/-- The sweep in a frame: what it records of the frame just measured. -/
def sweepFrame (s : State) (p : Fin 8) (binds : Bool) (x : Src) : Src :=
  if x.path = .qualifying && x.sweeping then
    match x.swp.stage with
    | .observe => observeFrame x
    | .down => if x.swp.stopped then x else downFrame s p binds x
    | .back => x
  else x

/-- Steps 2 and 3 of the sweep: 10 s observed; a check of R151 broken meanwhile fails the port; else V_IN_REF moves from V_OC to the
floor in 200 ms, the clamp at its R154 value. The DC floor of a port that the sweep finds to be DC is 90 % of V_OC, since the 250 ms
of R151 do not run (log 119). -/
def execClassificationObservationEnd (port : Fin 8) (s : State) : Host.Outcome State Fault Refusal :=
  let c := chanOfSrc port
  let x := s.src[port]
  .next (if x.path = .qualifying && x.sweeping && x.swp.stage = .observe && decide (1000000000 ≤ (s.tb - x.swp.tb).toNat) then
      match x.qual.bad with
      | some k => qualFail port k.val s
      | none =>
        let s1 := onSrc port (fun x => { x with dcFloor := 9 / 10 * x.vOc, swp := { x.swp with stage := .down } }) s
        let fl := lowBound s1 port
        setRef c fl ((x.vOc - fl).abs / 200000) (writeClamp c (inputClamp s1 port) (onChan c (fun h => { h with refOut := x.vOc }) s1))
    else s)

/-- The point of greatest power; the first of equals. -/
def bestPoint : List (Q × Q) → Q × Q
  | [] => (0, 0)
  | a :: l => l.foldl (fun b x => if mwOf b.1 b.2 < mwOf x.1 x.2 then x else b) a

/-- The class of the table "Classification rules"; 0 is undetermined. -/
def classify (vOc pid : Q) (sw : SweepRec) : Fin 5 :=
  let b := bestPoint sw.pts
  let low := sw.pts.getLastD (0, 0)
  let pm := mwOf b.1 b.2
  if 2 ≤ sw.cycles then 2
  else if sw.bound && sw.maxDev ≤ 5 / 100 && pid ≤ pm then 3
  else if 60 / 100 * vOc ≤ b.1 && b.1 ≤ 90 / 100 * vOc && mwOf low.1 low.2 ≤ 98 / 100 * pm &&
      (low.2 - b.2).abs ≤ b.2.abs / 5 && pid ≤ pm && !sw.pts.isEmpty then 1
  else 0

/-- R158: five consecutive undetermined results lengthen the block, whose end the outside times. -/
def undetermined (p : Fin 8) (s : State) : State :=
  let hit := s.src[p].cUndet.hits
  srcSat p 2 hit (qualFail p 0 (onSrc p (fun x => { x with undet := x.undet + 1, cUndet := x.cUndet.bump }) s))

/-- The classified event gives V_MP and I_MP for the solar class only. -/
def classifiedEvent (p : Fin 8) (cls : Fin 5) (b : Q × Q) (s : State) : State :=
  let (v, i) := if cls = 1 then b else (0, 0)
  pushEvent 0x0303 ([byte p.val, byte cls.val] ++ vField s.src[p].vOc ++ vField v ++ quant 4 i) s

/-- R157, R158: step 6, with the points of the whole sweep or up to its stop. -/
def execClassDecided (port : Fin 8) (s : State) : Host.Outcome State Fault Refusal :=
  let x := s.src[port]
  .next (if x.path = .qualifying && x.sweeping && (x.swp.stage = .back || x.swp.stopped) then
      let cls := classify x.vOc (pIdle s) x.swp
      let s1 := onSrc port (fun x => { x with sweepCut := x.swp.stopped }) s
      if cls = 0 then undetermined port s1
      else qualified port (classifiedEvent port cls (bestPoint x.swp.pts)
        (onSrc port (fun x => { x with found := cls, undet := 0 }) s1))
    else s)

/-! ### Ramping complete, over-voltage -/

/-- A lock put by at a withdrawal that is not older than 300 s (R176). -/
def keptLock (s : State) (x : Src) : Option Swell := if (s.tb - x.keptTb).toNat < 30000000000 then x.kept else none

/-- Tracking begins in the state the class gives; a lock kept from a withdrawal is resumed (R153, R176). -/
def srcDelivers (p : Fin 8) (s : State) : State :=
  let cls := srcClass s p
  let tgt := s.chan[chanOfSrc p].refTarget
  onSrc p (fun x =>
    let lock := if cls = 1 then keptLock s x else none
    { x with path := .delivering, pathTb := s.tb, swell := lock, kept := if cls = 1 then none else x.kept,
             track := match cls with | 1 => if lock.isSome then .swell else .tracking | 2 => .waveRunning | _ => .dc,
             vIn := tgt, vOp := if lock.isSome then 0 else tgt, calm := 0, firstCycle := true, match_ := 1, matchUp := true,
             trackTb := s.tb, scanTb := s.tb, poCount := 0, half := none, dim := 0, lockDue := none, eHist := [], eMax := 0,
             cycleTb := s.tb, ratioK := none, rAcc := {}, pInt := 0, eInt := 0 }) s

/-- R153: the clamp ramp and the slew have both ended. -/
def rampOver (s : State) (c : Fin 16) : Bool := decide (1 ≤ s.chan[c].ramp) && s.chan[c].refOut = s.chan[c].refTarget

def srcRampingComplete (p : Fin 8) (s : State) : State :=
  if s.src[p].path = .ramping && rampOver s (chanOfSrc p) then srcDelivers p s else s

/-- R150: a stop, not a withdrawal; a port of class 0 is off and raises nothing (R146). -/
def execSourceOvervoltageStop (port : Fin 8) (peak : Q) (s : State) : Host.Outcome State Fault Refusal :=
  let x := s.src[port]
  .next (if srcEn s port && paramAt s 0x300 port.val ≠ 0 && s.clk.vcc && !x.ovStop then
      let s1 := assertStop .sourceOv (chanOfSrc port) (onSrc port (fun x => { x with ovStop := true, cOv := x.cOv.bump }) s)
      let s2 := pushEvent 0x0309 (byte port.val :: vField peak) (reportUnit 0x14 1 port.val 0 (rnd (peak / 10)) s1)
      srcSat port 3 x.cOv.hits s2
    else s)

def execSourceOvervoltageRelease (port : Fin 8) (s : State) : Host.Outcome State Fault Refusal :=
  .next (if s.src[port].ovStop then
      releaseStop .sourceOv (chanOfSrc port) (onSrc port (fun x => { x with ovStop := false }) s)
    else s)

/-! ### Solar tracking (R159 to R166) -/

def highBound (s : State) (p : Fin 8) : Q := min s.src[p].vOc (vQmax s p - 1000)

/-- V_IN_REF written within the bounds of R161. -/
def writeVin (p : Fin 8) (v : Q) (s : State) : State :=
  setRef (chanOfSrc p) v (sourceSlew s) (onSrc p (fun x => { x with vIn := v }) s)

/-- The bin of a phase, and a profile interpolated linearly between bin centres (R163). -/
def binOf (ph : Word) : Fin 32 := Fin.ofNat 32 (ph.toNat / 2 ^ 27)

def profAt (v : Vector Q 32) (ph : Word) : Q :=
  let x : Q := (ph.toNat : Q) / (2 ^ 27 : Nat) - 1 / 2
  let k := x.floor
  let f := x - k
  let a : Fin 32 := Fin.ofNat 32 (k % 32).toNat
  let b : Fin 32 := Fin.ofNat 32 ((k + 1) % 32).toNat
  v[a] * (1 - f) + v[b] * f

/-- V_IN_REF for an offset or a point: in Swell-locked the profile is added (R160). -/
def pointOf (x : Src) (vOp : Q) : Q :=
  match x.swell with
  | some w => if x.track = .swell then profAt w.volt w.phase + vOp else vOp
  | none => vOp

/-- The offset or point that gives a V_IN_REF. -/
def opFor (x : Src) (v : Q) : Q := v - (pointOf x 0)

def profDelta (x : Src) : Q :=
  match x.swell with
  | some w => if x.track = .swell then profAt w.prof w.phase - profAt w.prof (BitVec.ofInt 32 (rnd x.phLast)) else 0
  | none => 0

/-- R160, R161. -/
def perturb (p : Fin 8) (power : Q) (s : State) : State :=
  let x := s.src[p]
  let lo := lowBound s p
  let hi := highBound s p
  if hi < lo then writeVin p hi (onSrc p (fun x => { x with vOp := opFor x hi, atBound := true, pLast := power }) s)
  else
    let dP := power - x.pLast - profDelta x
    let dir := if x.vIn ≤ lo then true else if hi ≤ x.vIn then false else if dP < 0 then !x.dirUp else x.dirUp
    let v := pointOf x (x.vOp + (if dir then poStep s else -(poStep s)) * x.vIn)
    let w := max lo (min hi v)
    writeVin p w (onSrc p (fun x => { x with
      dirUp := dir, vOp := opFor x w, pLast := power, atBound := w = lo || w = hi,
      phLast := (match x.swell with | some k => (k.phase.toNat : Q) | none => x.phLast),
      ratio := if x.vOc = 0 then x.ratio else some (w / x.vOc) }) s)

/-- R168 steps 1 and 2: the resistance of two successive intervals, from their second-half means, and the dither turned. -/
def waveStep (p : Fin 8) (now : Q × Q) (s : State) : State :=
  let (dv, di) : Q × Q := match s.src[p].half with
    | some (v, i) => (now.1 - v, now.2 - i)
    | none => (0, 0)
  let r := if di = 0 then 0 else -dv / di * 1000
  let ok := 2 / 100 * iInMax s p ≤ di.abs && 10 ≤ r && r ≤ 100000
  onSrc p (fun x => { x with dirUp := !x.dirUp, half := some now, rAcc := if ok then x.rAcc.add r else x.rAcc }) s

/-- Means of (power, V_PORT, I_PORT) over the last n frames. -/
def meanHist (n : Nat) (x : Src) : Q × Q × Q :=
  let l := x.hist.take n
  if l.isEmpty then (0, 0, 0)
  else ((l.map (·.1)).sum / l.length, (l.map (·.2.1)).sum / l.length, (l.map (·.2.2)).sum / l.length)

/-- Frames of the second half of an interval T_PO. -/
def halfFrames (s : State) : Nat := max 1 (poFrames s / 2)

/-- R160, R168: an interval T_PO is over. -/
def execPerturbObserveStep (port : Fin 8) (s : State) : Host.Outcome State Fault Refusal :=
  let x := s.src[port]
  .next (if x.path = .delivering && engineUp s (srcEngine port) && switching s (chanOfSrc port) && !suspended s port &&
            decide (poFrames s ≤ x.poCount) then
      let (pw, now) := meanHist (halfFrames s) x
      let s1 := onSrc port (fun x => { x with poCount := 0 }) s
      match x.track with
      | .tracking | .swell => perturb port pw s1
      | .waveRunning => waveStep port now s1
      | _ => s1
    else s)

/-! ### Swell detection (R162) -/

def swellPeriod (lag : Q) : Q := lag * 65536 / 1000000

/-- Marked samples of the window of 1831 (R164). -/
def windowMarked (x : Src) : Nat := (x.window.filter fun w => w.2.2).length

/-- The power samples of the window, newest first. -/
def windowP (x : Src) : List Q := x.window.map (·.1)

def meanOf (l : List Q) : Q := if l.isEmpty then 0 else l.sum / l.length

/-- The normalised autocorrelation at a lag: the sum of products of the deviations from the window's mean, over the sum of their
squares (R162; log 120). -/
def autoCorr (l : List Q) (lag : Nat) : Q :=
  let m := meanOf l
  let d := l.map (· - m)
  let e := (d.map fun x => x * x).sum
  if e = 0 then 0 else (List.zipWith (· * ·) d (d.drop lag)).sum / e

/-- The span of lags, 2 s to 30 s. -/
def swellLags : List Nat := List.range' 31 428

/-- L*: the smallest lag at which A has a peak within 10 % of its greatest value in the span; without a peak, the smallest lag within
10 % (R162; log 120). -/
def lagStar (a : Nat → Q) : Nat :=
  let top := swellLags.foldl (fun m l => max m (a l)) (a 31)
  let near (l : Nat) : Bool := decide (top - top.abs / 10 ≤ a l)
  let peak (l : Nat) : Bool := decide (a (l - 1) ≤ a l) && decide (a (l + 1) ≤ a l)
  ((swellLags.find? fun l => near l && peak l).orElse fun _ => swellLags.find? near).getD 31

/-- L* refined by the parabola through its neighbours. -/
def refineLag (a : Nat → Q) (l : Nat) : Q :=
  let den := 2 * (a (l - 1) - 2 * a l + a (l + 1))
  if den = 0 then l else l + (a (l - 1) - a (l + 1)) / den

/-- The k-th smallest of a list: the least value that k of its elements do not exceed. -/
def rank (l : List Q) (k : Nat) : Q :=
  match l.filter fun v => decide (k ≤ (l.filter (· ≤ v)).length) with
  | [] => 0
  | a :: t => t.foldl min a

/-- Modulation depth between the 5th and 95th percentiles, by rank (R162; log 120). -/
def modDepth (l : List Q) : Q :=
  let lo := rank l ((5 * l.length + 99) / 100)
  let hi := rank l ((95 * l.length + 99) / 100)
  if hi = 0 then 0 else (hi - lo) / hi

/-! ### Swell lock (R163, R164) -/

/-- The bin of the window's j-th sample, newest 0, for a period in s: the phase is 0 at the lock and the sample stands at its block's
middle (R163; log 120). -/
def foldBin (tSw : Q) (j : Nat) : Nat :=
  let f := -((2 * j + 1 : Nat) : Q) * (32768 / 1000000) / tSw
  ((f - f.floor) * 32).floor.toNat

/-- The window's samples folded by phase: the mean of each bin. -/
def foldProfile (tSw : Q) (l : List Q) : Vector Q 32 :=
  Vector.ofFn fun b => meanOf ((l.zipIdx.filter fun y => foldBin tSw y.2 = b.val).map (·.1))

/-- R163: on lock the profile is created, and V_op becomes an offset of zero. -/
def swellLock (p : Fin 8) (tSw a depth : Q) (s : State) : State :=
  let x := s.src[p]
  let w : Swell := { tSw := tSw, a := a, rate := (2 ^ 32 : Nat) * (256 / 1000000) / tSw, prof := foldProfile tSw (windowP x),
                     volt := foldProfile tSw (x.window.map (·.2.1)) }
  let hit := x.cSwell.hits
  let s1 := onSrc p (fun x => { x with
    swell := some w, swellOk := none, lockDue := none, cSwell := x.cSwell.bump, vOp := 0, track := .swell,
    binP := {}, binV := {}, visitP := [], binBad := true }) s
  srcSat p 5 hit (pushEvent 0x0304 ([byte p.val] ++ quantU 2 (tSw * 1000) ++ quantU 2 (a * 256) ++ quantU 2 (depth * 256)) s1)

/-- R164: the profile is discarded and V_op becomes the V_IN_REF in force; causes 0 correlation, 1 period, 2 skipped, 3 expiry. -/
def swellLost (p : Fin 8) (cause : Nat) (s : State) : State :=
  let s1 := onSrc p (fun x => { x with
    swell := none, kept := none, vOp := x.vIn,
    track := if x.track = .swell then .tracking else x.track, prev := if x.prev = .swell then .tracking else x.prev }) s
  pushEvent 0x0305 [byte p.val, Config.eventCode 0x0305 cause] s1

/-- An evaluation of a locked port (R164). -/
def swellKeep (p : Fin 8) (w : Swell) (tSw a : Q) (skip : Bool) (s : State) : State :=
  let skipped := if skip then w.skipped + 1 else 0
  let low := if skip then w.lowA else if a < 35 / 100 then w.lowA + 1 else 0
  let s1 := onSrc p (fun x => { x with swell := some { w with skipped := skipped, lowA := low, a := if skip then w.a else a } }) s
  if 30 ≤ skipped then swellLost p 2 s1
  else if 3 ≤ low then swellLost p 0 s1
  else if !skip && 20 / 100 * w.tSw < (tSw - w.tSw).abs then swellLost p 1 s1
  else s1

/-- An evaluation of a port not locked: two consecutive ones that meet the criteria lock it from Tracking; in a scan the lock follows
at its end, and in no other state is one entered (R159, R162, R176). An evaluation that is skipped stands between no two consecutive
ones (log 120). -/
def swellTry (p : Fin 8) (tSw a depth : Q) (skip : Bool) (s : State) : State :=
  let x := s.src[p]
  let meets := !skip && 50 / 100 ≤ a && 5 / 100 ≤ depth && trackOption s p 0 && 0 < tSw
  let again := x.swellOk.elim false fun t => decide ((tSw - t).abs ≤ 5 / 100 * t)
  if !meets then onSrc p (fun x => { x with swellOk := if skip then x.swellOk else none }) s
  else if again && x.track = .tracking then swellLock p tSw a depth s
  else onSrc p (fun x => { x with swellOk := some tSw, lockDue := if again && x.track = .scan then some (tSw, a, depth) else none }) s

/-- R162, R164: every 61 samples, once the window is full; an evaluation with more than 10 % of it marked is skipped. -/
def execSwellEvaluation (port : Fin 8) (s : State) : Host.Outcome State Fault Refusal :=
  let x := s.src[port]
  .next (if x.path = .delivering && srcClass s port = 1 && decide (1831 ≤ x.window.length) && decide (61 ≤ x.sinceEval) then
      let skip := decide (1831 < 10 * windowMarked x)
      let a := autoCorr (windowP x)
      let l := lagStar a
      let s1 := onSrc port (fun x => { x with sinceEval := 0, aLast := if skip then x.aLast else a l }) s
      match x.swell with
      | some w => swellKeep port w (swellPeriod (refineLag a l)) (a l) skip s1
      | none => swellTry port (swellPeriod (refineLag a l)) (a l) (modDepth (windowP x)) skip s1
    else s)

/-! ### Global scans (R165) -/

/-- The j-th of the 32 points, from 0.95 × V_OC down to the lower bound. -/
def scanPoint (s : State) (p : Fin 8) (j : Nat) : Q :=
  let top := 95 / 100 * s.src[p].vOc
  top - (j : Q) * (top - lowBound s p) / 31

/-- TB counts of the scan interval, key 0x0362. -/
def scanInterval (s : State) : Nat := (param s 0x362).toNat * 100000000

/-- A scan is due: its interval is over; one that fell due outside Tracking and Swell-locked waits for 10 s spent there. -/
def scanReady (s : State) (x : Src) : Bool :=
  let due := x.scanTb.toNat + scanInterval s
  decide (due ≤ s.tb.toNat) && (decide (x.trackTb.toNat ≤ due) || decide (x.trackTb.toNat + 1000000000 ≤ s.tb.toNat))

/-- R165 step 1, over the interval T_PO just ended, and the first of the 32 points. -/
def execGlobalScan (port : Fin 8) (s : State) : Host.Outcome State Fault Refusal :=
  let x := s.src[port]
  .next (if x.path = .delivering && srcClass s port = 1 && trackOption s port 1 && (x.track = .tracking || x.track = .swell) &&
            !suspended s port && switching s (chanOfSrc port) && scanReady s x then
      setRef (chanOfSrc port) (scanPoint s port 0) (sourceSlew s)
        (onSrc port (fun x => { x with scanBack := x.vIn, scanPow := (meanHist (poFrames s) x).1, scanHold := 0, scanPts := [],
                                       scanTb := s.tb, prev := x.track, track := .scan }) s)
    else s)

/-- A frame of a scan: each point is held for four frames, its power the mean of the last two; then the next point (R165; log 119). -/
def scanFrame (p : Fin 8) (s : State) : State :=
  let x := s.src[p]
  let j := x.scanPts.length
  if x.track = .scan && j < 32 && !annHolds s p then
    if 3 ≤ x.scanHold then
      let s1 := onSrc p (fun x => { x with scanHold := 0, scanPts := x.scanPts ++ [(scanPoint s p j, (meanHist 2 x).1)] }) s
      if j + 1 < 32 then setRef (chanOfSrc p) (scanPoint s p (j + 1)) (sourceSlew s) s1 else s1
    else onSrc p (fun x => { x with scanHold := x.scanHold + 1 }) s
  else s

/-- The state before a scan or a suspension restored. -/
def backTrack (tb : TB) (x : Src) : Src :=
  { x with track := if x.prev = .swell && x.swell.isSome then .swell else .tracking, prev := .none, trackTb := tb }

/-- V_IN_REF back at, or moved to, a point, with V_op to match (R165). -/
def landOn (p : Fin 8) (v : Q) (s : State) : State :=
  writeVin p v (onSrc p (fun x => { x with vOp := opFor x v }) s)

/-- The point of greatest power of a scan. -/
def scanBest (x : Src) : Q × Q := x.scanPts.foldl (fun b y => if b.2 < y.2 then y else b) (x.scanBack, 0)

/-- A lock whose criteria were met in the scan follows at its end (R176). -/
def lockAfterScan (p : Fin 8) (s : State) : State :=
  match s.src[p].lockDue with
  | some (t, a, d) => if s.src[p].track = .tracking then swellLock p t a d s else s
  | none => s

/-- R165 step 3: the 32 points are taken. -/
def scanOver (p : Fin 8) (s : State) : State :=
  let x := s.src[p]
  let b := scanBest x
  let s1 := onSrc p (backTrack s.tb) s
  if 102 / 100 * x.scanPow < b.2 then
    let ratio := if x.scanPow = 0 then 255 else b.2 / x.scanPow
    let s2 := onSrc p (fun x => { x with cScan := x.cScan.bump }) (landOn p b.1 s1)
    srcSat p 4 x.cScan.hits
      (pushEvent 0x0306 ([byte p.val] ++ vField x.scanBack ++ vField b.1 ++ quantU 2 (ratio * 256)) s2)
  else landOn p x.scanBack s1

def execScanEnd (port : Fin 8) (s : State) : Host.Outcome State Fault Refusal :=
  let x := s.src[port]
  .next (if x.track = .scan && decide (32 ≤ x.scanPts.length) && !annHolds s port then lockAfterScan port (scanOver port s) else s)

/-! ### Idle (R159, R166) -/

/-- R159: 30 s below P_IDLE; Idle stops switching, and the port stays Delivering. -/
def execIdleEntry (port : Fin 8) (s : State) : Host.Outcome State Fault Refusal :=
  let x := s.src[port]
  .next (if x.path = .delivering && (x.track = .tracking || x.track = .swell) && trackOption s port 2 && !annHolds s port &&
            switching s (chanOfSrc port) && decide (30000000 ≤ 256 * x.dim) then
      pushEvent 0x0307 (byte port.val :: vField x.vOc)
        (onSrc port (fun x => { x with track := .idle, swell := none, trial := false, trialTb := none, idleTb := s.tb, lockDue := none })
          (haltChan (chanOfSrc port) s))
    else s)

/-- R166 step 1, 60 s after the entry or the last trial; a trial waits while κ < 1 or in Annealing (R176). -/
def execIdleTrial (port : Fin 8) (vPort : Q) (s : State) : Host.Outcome State Fault Refusal :=
  let c := chanOfSrc port
  .next (if s.src[port].track = .idle && !s.src[port].trial && kappaAt s s.chan[c].lim.order s.ride.v = 1 && !annHolds s port &&
            decide (6000000000 ≤ (s.tb - s.src[port].idleTb).toNat) then
      let s1 := onChan c (fun h => { h with refOut := vPort })
        (beginChan c (onSrc port (fun x => { x with trial := true, trialTb := none, trialP := {}, idleTb := s.tb }) s))
      writeVin port (8 / 10 * s1.src[port].vOc) s1
    else s)

/-- A frame of a trial: the second of its hold runs from the arrival at the point; the powers of the last half of it are gathered. -/
def trialFrame (s : State) (p : Fin 8) (x : Src) : Src :=
  let h := s.chan[chanOfSrc p]
  if x.track = .idle && x.trial then
    match x.trialTb with
    | none => if h.refOut = h.refTarget then { x with trialTb := some s.tb } else x
    | some t => if 50000000 < (s.tb - t).toNat && (s.tb - t).toNat ≤ 100000000 then { x with trialP := x.trialP.add x.pw.mean } else x
  else x

/-- R166 step 3: the point has been held for 1 s. P_last of the first step after Idle is 0, which the spec leaves open (log 119). -/
def execIdleTrialResult (port : Fin 8) (s : State) : Host.Outcome State Fault Refusal :=
  let x := s.src[port]
  .next (if x.track = .idle && x.trial && !annHolds s port &&
            (x.trialTb.elim false fun t => decide (100000000 ≤ (s.tb - t).toNat)) then
      if 2 * pIdle s ≤ accMean x.trialP then
        pushEvent 0x0308 (byte port.val :: vField x.vOc)
          (onSrc port (fun x => { x with trial := false, trialTb := none, track := .tracking, vOp := x.vIn, pLast := 0, calm := 0,
                                         dim := 0, trackTb := s.tb }) s)
      else onSrc port (fun x => { x with trial := false, trialTb := none }) (haltChan (chanOfSrc port) s)
    else s)

/-- R176: a profile put by is discarded after 300 s, and the lock is lost; a port of class 0 raises nothing (R146). -/
def execSwellProfileExpiry (port : Fin 8) (s : State) : Host.Outcome State Fault Refusal :=
  let x := s.src[port]
  .next (if x.kept.isSome && decide (30000000000 ≤ (s.tb - x.keptTb).toNat) then
      if paramAt s 0x300 port.val = 0 then onSrc port (fun x => { x with kept := none }) s else swellLost port 3 s
    else s)

/-! ### Wave matching (R168 to R170) -/

def eEst (x : Src) : Q := x.v.mean + x.rg * x.i.mean / 1000

/-- R169: the cycle ratio, the match factor and R_g,est. -/
def waveCycle (s : State) (x : Src) : Src :=
  let eta := if x.eInt = 0 then none else some (x.pInt / x.eInt)
  let worse := match eta, x.ratioK with | some a, some b => decide (a < b) | _, _ => false
  let up := if worse then !x.matchUp else x.matchUp
  let f : Q := 1 + (param s 0x364 : Q) / 100
  let m := max (1 / 2) (min 2 (if up then x.match_ * f else x.match_ / f))
  { x with match_ := m, matchUp := up, ratioK := if eta.isSome then eta else x.ratioK,
           rg := if x.rAcc.n = 0 then x.rg else x.rAcc.sum / x.rAcc.n, rAcc := {}, pInt := 0, eInt := 0, firstCycle := false,
           cycleTb := s.tb, eMax := x.eHist.headD 0 }

/-- The cycle is over: a local minimum of E_est below half the cycle's highest, or the wave maximum cycle (R169). -/
def cycleOver (s : State) (x : Src) : Bool :=
  (match x.eHist with
   | e0 :: e1 :: e2 :: _ => decide (e1 ≤ e2) && decide (e1 < e0) && decide (e1 < x.eMax / 2)
   | _ => false) || decide ((param s 0x365).toNat * 10000000 ≤ (s.tb - x.cycleTb).toNat)

def execWaveCycleEnd (port : Fin 8) (s : State) : Host.Outcome State Fault Refusal :=
  .next (if s.src[port].track = .waveRunning && !suspended s port && cycleOver s s.src[port] then onSrc port (waveCycle s) s else s)

/-- E_est below V_WAVE_RUN in the last two frames. -/
def waveLow (s : State) (p : Fin 8) : Bool :=
  match s.src[p].eHist with
  | a :: b :: _ => decide (a < vWaveRun s p) && decide (b < vWaveRun s p)
  | _ => false

/-- R170: entry to the paused state ends the cycle and writes a clamp of zero. -/
def execWavePause (port : Fin 8) (s : State) : Host.Outcome State Fault Refusal :=
  .next (if s.src[port].track = .waveRunning && waveLow s port then
      writeClamp (chanOfSrc port) 0 (onSrc port (fun x => { (if suspended s port then x else waveCycle s x) with track := .wavePaused }) s)
    else s)

/-- R170: V_PORT has reached V_WAVE_RUN + 1.00 V; a new cycle begins. -/
def execWaveResume (port : Fin 8) (s : State) : Host.Outcome State Fault Refusal :=
  .next (if s.src[port].track = .wavePaused && decide (vWaveRun s port + 1000 ≤ s.src[port].v.last) then
      writeClamp (chanOfSrc port) (inputClamp s port)
        (onSrc port (fun x => { x with track := .waveRunning, cycleTb := s.tb, eHist := [], eMax := 0 }) s)
    else s)

/-! ### The class key written (R174) -/

/-- The effect of a written class key; the found class is dropped (R156). -/
def sourceClassWritten (p : Fin 8) (s : State) : State :=
  let s1 := onSrc p (fun x => { x with found := 0 }) s
  let off := paramAt s1 0x300 p.val = 0
  match s1.src[p].path with
  | .absent | .withdrawing => s1
  | .debounce => if off then onSrc p (fun x => { x with path := .absent, present := false, pathTb := s.tb }) s1 else s1
  | .qualifying =>
    onSrc p (fun x => { x with sweeping := false, pathTb := s.tb, path := if x.present && !off then .debounce else .absent })
      (haltChan (chanOfSrc p) s1)
  | .ramping | .delivering => withdrawSrc p s1

/-! ### The control frame of a source port (R30, R154, R155, R159, R163, R168, R171) -/

/-- The clamp binds at its written value while κ does not reduce it. -/
def clampBound (s : State) (c : Fin 16) : Bool :=
  let h := s.chan[c]
  decide (h.uOut < h.u) && decide (h.uOut = h.lim.pos * phaseScale s c * h.ramp) && decide (h.kappa = 1)

/-- k after a frame: one quarter of the relative error while the clamp binds. -/
def kNext (s : State) (p : Fin 8) (x : Src) (binds : Bool) : Q × Bool × Bool :=
  if !binds then (x.kCorr, false, false)
  else
    let byP := match pMax s p with | some m => decide (m < mwOf (iInMax s p) x.v.mean) | none => false
    let lim := if byP then (pMax s p).getD 0 else iInMax s p
    let got := if byP then mwOf x.v.mean x.i.mean else x.i.mean
    let e := if lim = 0 then 0 else (lim - got) / lim
    (max (80 / 100) (min (125 / 100) (x.kCorr + e / 4)), !byP, byP)

/-- The measured quantities of the frame just ended: the port's power is the mean of its records' products; the energy counter takes
its 256 µs (R160, R171). -/
def srcMeasure (s : State) (x : Src) : Src :=
  let v := x.v.close
  let i := x.i.close
  let w := x.pw.close
  { x with v := v, i := i, pw := w, hist := ((w.mean, v.mean, i.mean) :: x.hist).take 64, poCount := min 64 (x.poCount + 1),
           energy := x.energy + w.mean * 1000 * 256 / 1000000 / 3600, dim := if w.mean < pIdle s then x.dim + 1 else 0 }

/-- A state that holds tracking, V_IN_REF back at its value before a scan. -/
def holdTrack (t prev : Track) (x : Src) : Src :=
  { x with track := t, prev := prev, calm := 0, vIn := if x.track = .scan then x.scanBack else x.vIn, lockDue := none }

/-- κ < 1 suspends solar tracking and abandons a scan; a binding input clamp suspends Tracking and Swell-locked only, since the table
gives a scan no other exit; 16 calm intervals restore the state. A hiccup or stop abandons a scan (table "Solar tracking states", R176;
log 119). -/
def solarState (s : State) (p : Fin 8) (kappa : Q) (binds : Bool) (x : Src) : Src :=
  let live := x.track = .tracking || x.track = .swell
  let held := x.track = .curtailed || x.track = .inputLimited
  let prev := if live then x.track else x.prev
  if kappa < 1 && (live || held || x.track = .scan) then holdTrack .curtailed prev x
  else if x.track = .scan && !switching s (chanOfSrc p) then backTrack s.tb (holdTrack .scan x.prev x)
  else if binds && (live || held) then holdTrack .inputLimited prev x
  else if held then
    if 16 * poFrames s ≤ x.calm + 1 then { backTrack s.tb x with calm := 0 } else { x with calm := x.calm + 1 }
  else { x with calm := 0 }

/-- The phase accumulator advances each frame; on leaving a bin that the port spent in Swell-locked throughout, with nothing holding
its tracking, the profile moves a quarter of the way, and once a period the phase is corrected (R163, R165). -/
def swellAdvance (s : State) (p : Fin 8) (x : Src) : Src :=
  match x.swell with
  | none => x
  | some w =>
    let ph := BitVec.ofInt 32 (w.phase.toNat + rnd w.rate)
    let old := binOf w.phase
    let bad := x.binBad || x.track ≠ .swell || annHolds s p || !switching s (chanOfSrc p)
    let bp := x.binP.add x.pw.mean
    let bv := x.binV.add x.vIn
    if binOf ph = old then { x with swell := some { w with phase := ph }, binP := bp, binV := bv, binBad := bad }
    else
      let mp := accMean bp
      let mv := accMean bv
      let w1 := if bad then w else { w with prof := upd w.prof old (fun a => a + (mp - a) / 4), volt := upd w.volt old (fun a => a + (mv - a) / 4) }
      let visit := mp :: x.visitP
      let wrap := decide (ph.toNat < w.phase.toNat)
      let err : Q := if wrap then (Config.fundamentalError visit : Q) else 0
      { x with swell := some { w1 with phase := BitVec.ofInt 32 (ph.toNat + rnd (err / 4)), rate := w1.rate + err / 16 },
               binP := {}, binV := {}, visitP := if wrap then [] else visit, binBad := false }

/-- The swell window: one sample of 256 frames, marked by R164. -/
def swellSample (s : State) (p : Fin 8) (x : Src) : Src :=
  let c := chanOfSrc p
  let bad := x.track = .curtailed || x.track = .inputLimited || x.track = .scan || x.track = .idle || annHolds s p ||
    !switching s c
  let b := x.block.add x.pw.mean
  let bv := x.blockV.add x.vIn
  if b.n < 256 then { x with block := b, blockV := bv, blockMark := x.blockMark || bad }
  else { x with window := ((b.sum / b.n, bv.sum / bv.n, x.blockMark || bad) :: x.window).take 1831, block := {}, blockV := {},
                blockMark := false, sinceEval := x.sinceEval + 1 }

/-- V_IN_REF of a wave port in its running state (R168 steps 3 and 4). -/
def waveVin (s : State) (p : Fin 8) (x : Src) : Q :=
  let base := if x.firstCycle then rampTarget s p else eEst x * x.match_ / (1 + x.match_)
  base + (if x.dirUp then poStep s else -(poStep s)) * base

/-- A frame of the running part: E_est and the two integrals of R169. -/
def waveIntegrate (x : Src) : Src :=
  let e := eEst x
  { x with pInt := x.pInt + x.pw.mean * 256 / 1000000, eHist := (e :: x.eHist).take 3, eMax := max x.eMax e,
           eInt := if x.rg = 0 then x.eInt else x.eInt + e * e / (4 * x.rg) * 256 / 1000000 }

/-- V_IN_REF held at the point the engine has chosen. -/
def holdVin (p : Fin 8) (s : State) : State :=
  if s.chan[chanOfSrc p].refTarget = s.src[p].vIn then s else writeVin p s.src[p].vIn s

/-- The sweep's setpoints (R156): the light clamp in steps 1 and 5, V_IN_REF stopped where it stands at an early stop, and moved to the
point of highest power after the last. -/
def sweepSetpoints (p : Fin 8) (s : State) : State :=
  let c := chanOfSrc p
  let x := s.src[p]
  match x.swp.stage with
  | .observe | .back => writeClamp c (lightClamp s p) s
  | .down =>
    if x.swp.stopped then setRef c s.chan[c].refOut (sourceSlew s) (writeClamp c (lightClamp s p) s)
    else if 64 ≤ x.swp.pts.length then
      setRef c (bestPoint x.swp.pts).1 (sourceSlew s) (writeClamp c (lightClamp s p)
        (onSrc p (fun x => { x with swp := { x.swp with stage := .back } }) s))
    else writeClamp c (inputClamp s p) s

/-- The engine's setpoints for the port in this frame (R30): its clamp, the slew of key 0x0214 and V_IN_REF. -/
def srcSetpoints (p : Fin 8) (s : State) : State :=
  let c := chanOfSrc p
  let x := s.src[p]
  if x.path = .qualifying && x.sweeping then sweepSetpoints p s
  else
    let live := x.path = .ramping || x.path = .delivering
    let s1 := if live && x.track ≠ .wavePaused && !(x.track = .idle && !x.trial) then setRate c (sourceSlew s) (writeClamp c (inputClamp s p) s)
      else s
    match x.track with
    | .dc => if s1.chan[c].refTarget = rampTarget s1 p then s1 else writeVin p (rampTarget s1 p) s1
    | .waveRunning =>
      if suspended s1 p || !switching s1 c then s1 else writeVin p (waveVin s1 p s1.src[p]) (onSrc p waveIntegrate s1)
    | .tracking | .swell | .curtailed | .inputLimited => holdVin p s1
    | .scan => scanFrame p s1
    | .idle => if x.trial then s1 else onSrc p (fun x => { x with vOc := x.v.mean }) s1
    | _ => s1

/-- κ of a channel that does not switch, whose compensator forms none: the tier law goes on (R46, R171). -/
def idleKappa (c : Fin 16) (s : State) : State :=
  if switching s c then s else onChan c (fun h => { h with kappa := kappaAt s h.lim.order s.ride.v }) s

/-- Curtailment as the port reports it, and its events 0x0204 and 0x0205 (R46, R404). -/
def curtailReport (usb : Bool) (p : Fin 8) (order : Nat) (s : State) : State :=
  let c := chanOf usb p
  let now := decide (s.chan[c].kappa < 1) && switching s c
  if now = s.chan[c].curtailed then s
  else pushEvent (if now then 0x0204 else 0x0205) [byte (b2n usb), byte p.val, byte order]
    (onChan c (fun h => { h with curtailed := now }) s)

/-- What a solar port records and does in a frame, Annealing or not (R159, R163, R164, R175). -/
def solarFrame (s : State) (p : Fin 8) (kappa : Q) (binds : Bool) (x : Src) : Src :=
  if x.path = .delivering && srcClass s p = 1 then
    trialFrame s p (swellSample s p (swellAdvance s p (solarState s p kappa binds x)))
  else x

def srcFrame (p : Fin 8) (s : State) : State :=
  if !srcActive s p then s
  else
    let c := chanOfSrc p
    let s0 := idleKappa c s
    let x0 := s0.src[p]
    let binds := (x0.path = .ramping || x0.path = .delivering || x0.sweeping) && clampBound s0 c
    let s1 := onSrc p (fun x =>
      let x := srcMeasure s0 (qualFrame s0 p x)
      let (k, bi, bp) := kNext s0 p x binds
      solarFrame s0 p s0.chan[c].kappa binds (sweepFrame s0 p binds { x with kCorr := k, bindI := bi, bindP := bp })) s0
    curtailReport false p s1.chan[c].lim.order (srcSetpoints p s1)

end Sys2Proof.Machine
end

