-- ==== Sys2Proof/Machine/Usb.lean ====
section
/-! DEFINITION. The USB ports: Type-C attachment, the PD protocol layer, contracts as sink and as source, swaps, Hard Reset
and the port's control and policy frames (chapter 9). The layouts of PD headers and objects are those of the USB PD
specification that R237 and R238 name, and so are the parts of an exchange that R240 and R246 leave to it (log 20). -/

namespace Sys2Proof.Machine
open Sys2Proof

/-! ### Parameters -/

/-- A device-wide key as a port's attach found it (R239). -/
def usbShared (s : State) (p : Fin 4) (k : Nat) : Int := (lookup (BitVec.ofNat 16 k) s.usb[p].keys).getD (param s k)

/-- A port's key as its attach found it; the shed class is followed at once (R239). -/
def usbKey (s : State) (base : Nat) (p : Fin 4) : Int := usbShared s p (base + p.val)

/-- The keys that an attach takes for its duration. -/
def attachKeys (s : State) (p : Fin 4) : List (Half × Int) :=
  (([0x600, 0x604, 0x608, 0x60C, 0x61C, 0x624, 0x628, 0x62C].map (· + p.val)) ++ [0x630, 0x631, 0x640, 0x641, 0x642, 0x643, 0x644]).map
    fun k => (BitVec.ofNat 16 k, param s k)

def rolePolicy (s : State) (p : Fin 4) : Int := usbKey s 0x600 p
def isDrp (s : State) (p : Fin 4) : Bool := 2 ≤ rolePolicy s p
def vSnkMax (s : State) (p : Fin 4) : Q := (usbKey s 0x604 p : Q) * 10
/-- P_SNK_MAX and P_SRC_MAX in mW. -/
def pSnkMax (s : State) (p : Fin 4) : Q := (usbKey s 0x608 p : Q) * 500
def pSrcMax (s : State) (p : Fin 4) : Q := (usbKey s 0x628 p : Q) * 1000
def iSrcMax (s : State) (p : Fin 4) : Q := (usbKey s 0x61C p : Q) * 10
def srcObject (s : State) (p : Fin 4) (b : Nat) : Bool := (usbKey s 0x60C p).toNat.testBit b
def swapOption (s : State) (p : Fin 4) (b : Nat) : Bool := (usbKey s 0x624 p).toNat.testBit b
def fixedSlew (s : State) (p : Fin 4) : Q := (usbShared s p 0x630 : Q) / 10
def ppsSlew (s : State) (p : Fin 4) : Q := (usbShared s p 0x631 : Q) / 10

def anvilUp (s : State) : Bool := s.mbox.ready
def usbActive (s : State) (p : Fin 4) : Bool := usbEn s p && engineUp s (usbEngine p) && deviceRuns s

def attached (t : TypeC) : Bool := t = .attSnk || t = .attSrc

/-! ### Events and counters -/

def usbSat (p : Fin 4) (num : Nat) (hit : Bool) (s : State) : State := satEvent 0x060C p.val 2 num hit s

/-- A contract that a Request made. -/
def explicit (k : ContractKind) : Bool := k = .fixed || k = .pps || k = .eprFixed

/-- The Rp level on the wire: as source in an explicit PD 3.x contract SinkTxOK, 3.0 A, or SinkTxNG, 1.5 A; else the level of the time
before the contract, and as sink the partner's (R242). -/
def rpNow (u : Usb) : Fin 3 := if u.source && explicit u.contract.kind && !u.pd20 then (if u.sinkTxOk then 2 else 1) else u.rpLevel

/-- The Rp level as the events give it (log 19). -/
def rpCode (u : Usb) : Byte := Config.eventCode 0x0601 (rpNow u).val

def roleByte (u : Usb) : Byte := byte (b2n u.source)

def attachEvent (p : Fin 4) (s : State) : State :=
  pushEvent 0x0601 [byte p.val, roleByte s.usb[p], rpCode s.usb[p]] s
def detachEvent (p : Fin 4) (s : State) : State :=
  pushEvent 0x0602 [byte p.val, roleByte s.usb[p], rpCode s.usb[p]] s

def contractCode : ContractKind → Nat
  | .none => 0 | .implicit => 1 | .fixed => 2 | .pps => 3 | .eprFixed => 4

def contractEvent (p : Fin 4) (s : State) : State :=
  let c := s.usb[p].contract
  pushEvent 0x0603 ([byte p.val, roleByte s.usb[p], byte (contractCode c.kind)] ++ quantU 2 (c.mv / 10) ++ quantU 2 (c.ma / 10)) s

/-- Swap kinds and initiator as the events give them: the spec gives no codes (log 19). -/
def swapNo : SwapKind → Nat
  | .pr => 0 | .dr => 1 | .vconn => 2

def swapCode (k : SwapKind) : Byte := Config.eventCode 0x0604 (swapNo k)

/-- The initiator, after the three swaps: the device, the partner. -/
def initiatorCode (own : Bool) : Byte := Config.eventCode 0x0604 (if own then 3 else 4)

/-- A completed swap counts; a rejected one does not. -/
def swapEvent (p : Fin 4) (k : SwapKind) (own done : Bool) (s : State) : State :=
  let hit := s.usb[p].cSwap.hits
  let s1 := if done then onUsb p (fun u => { u with cSwap := u.cSwap.bump }) s else s
  usbSat p 5 (done && hit) (pushEvent (if done then 0x0604 else 0x0605) [byte p.val, swapCode k, initiatorCode own] s1)

/-! ### Q14 and Q15 (R245, R329) -/

/-- A PD ring entry (table "PD ring entry"). -/
def pdFields (p : Fin 4) (kind sop res : Nat) (tb : TB) (header ext : Nat) (data : List Byte) (seq : Half) : List Byte :=
  [byte p.val, byte kind, byte sop, byte res] ++ le 4 (tb.toNat : Nat) ++ le 2 header ++ le 2 ext ++ pad 28 data ++
  le 2 (data.length : Nat) ++ le16 seq ++ [0, 0, 0, 0]

def pdEntry (p : Fin 4) (kind sop res : Nat) (tb : TB) (header : Nat) (data : List Byte) (seq : Half) : List Byte :=
  pdFields p kind sop res tb header 0 data seq

/-- A PHY's push to Q14: held in the port's four places without credit; beyond them discarded and counted, and Anvil answers
with Hard Reset at the port's next entry (R329). -/
def pushQ14 (p : Fin 4) (bs : List Byte) (s : State) : State :=
  let u := s.usb[p]
  if u.held.isEmpty && 1 ≤ credit 14 s.ring[14] then putRing 14 (place 14 bs s.ring[14]) s
  else if u.held.length < 4 then onUsb p (fun u => { u with held := u.held ++ [(s.tb, bs)] }) s
  else onUsb p (fun u => { u with holdLost := true }) (putRing 14 { s.ring[14] with cnt := s.ring[14].cnt.bump } s)

/-- Header of a message: type, data role, revision, power role, count (USB PD; log 20). -/
def pdHeader (u : Usb) (sopP : Bool) (typ n : Nat) : Nat :=
  typ + (if sopP then 0 else 32 * b2n u.dfp) + 64 * (if u.pd20 then 1 else 2) + (if sopP then 0 else 256 * b2n u.source) + 4096 * n

/-- Anvil places a message for the port's PHY in Q15 (R246). -/
def sendMsg (p : Fin 4) (sopP : Bool) (typ : Nat) (objs : List Word) (s : State) : State :=
  let u := s.usb[p]
  let seq := u.txSeq + 1
  pushRing 15 (pdEntry p 0 (b2n sopP) 0 s.tb (pdHeader u sopP typ objs.length) (objs.flatMap le32) seq)
    (onUsb p (fun u => { u with txSeq := seq }) s)

/-- Header of an extended message: bit 15 of the header; in its own, a chunk of so many data bytes in all (USB PD; log 20). -/
def extHeader (n chunk : Nat) : Nat := 32768 + 2048 * chunk + n

/-- An extended message in its chunks of 26 bytes (R238). -/
def sendExt (p : Fin 4) (typ : Nat) (data : List Byte) (s : State) : State :=
  each (List.range ((data.length + 25) / 26)) (fun k s =>
    let seq := s.usb[p].txSeq + 1
    let part := (data.drop (26 * k)).take 26
    pushRing 15 (pdFields p 0 0 0 s.tb (pdHeader s.usb[p] false typ ((part.length + 5) / 4) + 32768) (extHeader data.length k) part seq)
      (onUsb p (fun u => { u with txSeq := seq }) s)) s

/-- So many bytes of an answer whose contents no rule gives (log 1). -/
def sendFree (p : Fin 4) (typ n : Nat) (head : List Byte) (s : State) : State :=
  sendExt p typ (pad n (head ++ le n (Config.freeNat s.free : Nat))) { s with free := s.free + 1 }

def ctlAccept : Nat := 3
def ctlReject : Nat := 4
def ctlPsRdy : Nat := 6
def ctlDrSwap : Nat := 9
def ctlPrSwap : Nat := 10
def ctlVconnSwap : Nat := 11
def ctlWait : Nat := 12
def ctlSoftReset : Nat := 13
def ctlNotSupported : Nat := 16
def send (p : Fin 4) (typ : Nat) (s : State) : State := sendMsg p false typ [] s

/-- Anvil takes the port's entry from the front of Q14, where one stands there. -/
def takeQ14 (p : Fin 4) (s : State) : State :=
  match headEntry 14 0 s with
  | some e => if (byteAt e.bytes 0).toNat % 4 = p.val then popRing 14 0 true s else s
  | none => s

/-! ### The converter of a USB port -/

/-- The clamp of the sink role, on current to the Ride, and of the source role, on current to the port (R17, R248, R258). -/
def usbClamp (p : Fin 4) (i : Q) (s : State) : State :=
  writeClamps (chanOfUsb p) i (written s.chan[chanOfUsb p]).neg s
def srcClamp (p : Fin 4) (i : Q) (s : State) : State :=
  writeClamps (chanOfUsb p) (written s.chan[chanOfUsb p]).pos i s

/-- The clamp of a source contract (R258); before one, of the 5 V object as a Fixed contract at I_SRC_MAX. -/
def srcClampFor (c : Contract) : Q := if c.kind = .pps then c.ma else 110 / 100 * c.ma

/-- VBUS starts as source from the measured voltage towards a target (R109, R265). -/
def startVbus (p : Fin 4) (vbus target : Q) (s : State) : State :=
  let c := chanOfUsb p
  let s1 := onChan c (fun h => { h with refOut := vbus }) (beginChan c s)
  srcClamp p (max 500 (iSrcMax s p) * 110 / 100) (setRef c target (fixedSlew s1 p) s1)

/-- VBUS driven down to 3.0 V at the fixed slew; the control frame then stops the channel and turns DSCHG on (R259). -/
def drainVbus (p : Fin 4) (q : Seq) (s : State) : State :=
  let c := chanOfUsb p
  let s1 := onUsb p (fun u => { u with seq := q }) s
  if switching s c then setRef c 3000 (fixedSlew s1 p) s1
  else onUsb p (fun u => { u with dschg := true }) (haltChan c s1)

/-! ### Attachment (R240 to R243) -/

/-- The Unattached state of the role policy; a source-only port whose class is shed is Disabled (R260). -/
def unattachedOf (s : State) (p : Fin 4) : TypeC :=
  let u := s.usb[p]
  if !usbActive s p || u.latched || u.held60 || s.chan[chanOfUsb p].stops.contains .wardenPort then .disabled
  else if rolePolicy s p = 1 then (if u.barred then .disabled else .unattSrc) else .unattSnk

/-- The state after a detach: as sink Unattached.SNK, as source Unattached.SRC (table "Type-C states"), where the role policy that
then applies has it. -/
def detachedOf (s : State) (p : Fin 4) : TypeC :=
  let u := s.usb[p]
  let t := unattachedOf (onUsb p (fun u => { u with keys := [] }) s) p
  if t = .unattSnk && u.source && !u.barred && 2 ≤ param s (0x600 + p.val) then .unattSrc else t

/-- Everything an attachment set is forgotten. -/
def clearAttach (u : Usb) : Usb :=
  { u with source := false, dfp := false, vconnSrc := false, vconnOn := false, vconnBad := false, epr := false, pd20 := false,
           contract := {}, next := {}, ask := .none, askGone := false, reqSlot := none, waitDue := false, later := .none, seq := .none,
           swapDone := false, vconnDone := false, swapOwn := false, vconnWait := false, bist := false, discTries := 0, cable := 0,
           hrCount := 0, capWait := 0, sop := {}, sopP := {}, qualBad := false,
           txBusy := none, txTries := 0, offered := [], partner := [], startDue := false, ppsLimit := false, clampBinds := false,
           sinkTxOk := true, hicHit := false, shed := false, hrAsked := false, keys := [] }

def isRp : CcView → Bool
  | .rpDefault | .rp15 | .rp30 => true
  | _ => false
def isRd : CcView → Bool
  | .rd _ => true
  | _ => false

/-- What an Unattached port finds on its CC pins: an attach begins, but not while its hand-over runs (R57, R240). -/
def seeCc (p : Fin 4) (s : State) : State :=
  onUsb p (fun u =>
    if u.handover then u
    else match u.tc with
      | .unattSnk => if isRp u.view then { u with tc := .attWaitSnk, path := .debounce } else u
      | .unattSrc => if isRd u.view then { u with tc := .attWaitSrc } else u
      | _ => u) s

/-- The port leaves an attachment for Unattached, Disabled or ErrorRecovery: detached is told where Unattached is entered (R268). -/
def toUnattached (p : Fin 4) (t : TypeC) (s : State) : State :=
  let was := attached s.usb[p].tc && (t = .unattSnk || t = .unattSrc)
  let s1 := if was then detachEvent p s else s
  let hot := 800 < s1.usb[p].vbus.last
  seeCc p (onUsb p (fun u => { clearAttach u with
      tc := t, path := if u.handover then .withdrawing else .absent, redetect := false, ovStop := false, dschg := hot })
    (releaseStop .sinkOv (chanOfUsb p) (haltChan (chanOfUsb p) s1)))

/-- R251: the clamp is zero and the hand-over begins; R54's withdrawal does the same, and ends in attach detection. -/
def plannedWithdraw (p : Fin 4) (s : State) : State :=
  let s1 := annHandover (usbClamp p 0 (haltChan (chanOfUsb p) s))
  pushEvent 0x0202 [1, byte p.val] (onUsb p (fun u => { u with handover := true, path := .withdrawing }) s1)

/-- A hand-over after which the port must see an attach anew (R57). -/
def lostWithdraw (p : Fin 4) (s : State) : State :=
  onUsb p (fun u => { u with redetect := true }) (if s.usb[p].handover then s else plannedWithdraw p s)

/-- The level a sink sees (R252). -/
def rpOf (v : CcView) (old : Fin 3) : Fin 3 :=
  match v with
  | .rpDefault => 0 | .rp15 => 1 | .rp30 => 2 | _ => old

/-- R240: Attached.SNK; the path qualifies until the first contract (R248). -/
def attachSnk (p : Fin 4) (s : State) : State :=
  let hit := s.usb[p].cAttach.hits
  let s1 := onUsb p (fun u => { clearAttach u with
    keys := attachKeys s p, tc := .attSnk, path := .qualifying, origSource := false, origVconn := false, cAttach := u.cAttach.bump,
    rpLevel := rpOf u.view 0, dschg := false }) s
  usbSat p 0 hit (attachEvent p s1)

/-- VCONN where Ra is seen and option bit 4 is set (R243). -/
def raSeen (u : Usb) : Bool := match u.view with | .rd ra => ra | _ => false

/-- The Rp level before a contract: the highest not above the current of the 5 V object (R242). -/
def rpFor (i : Q) : Fin 3 := if 3000 ≤ i then 2 else if 1500 ≤ i then 1 else 0

/-! ### Source objects (R254 to R256) -/

def cableLimit (u : Usb) : Q := if u.cable = 2 || u.cable = 3 then 5000 else 3000

def gridDown (i g : Q) : Q := g * ((i / g).floor : Int)

/-- R255: the current of an object at a voltage, mA on its grid, times θ (R318). -/
def objCurrent (s : State) (p : Fin 4) (v grid : Q) : Q :=
  let u := s.usb[p]
  let shed := shedThreshold s u.cls
  let ratio := if shed = 0 then 1 else max 1 (v / shed)
  let a := min (min (iSrcMax s p) (pSrcMax s p * 1000 / v)) (min (cableLimit u) (85 / 100 * keyRev s (chanOfUsb p) / (110 / 100 * ratio)))
  gridDown (s.chan[chanOfUsb p].theta * a) grid

/-- The Fixed voltages enabled, in order, with the bit of each. -/
def fixedVolts : List (Q × Nat) := [(9000, 0), (15000, 1), (20000, 2)]

/-- Fixed objects above 5 V: the 20 V object needs every lower enabled one. -/
def fixedObjects (s : State) (p : Fin 4) : List (Q × Q) :=
  let cand := fixedVolts.filterMap fun (v, b) =>
    if srcObject s p b then (let i := objCurrent s p v 10; some (v, i)) else none
  let ok := cand.filter fun (_, i) => 500 ≤ i
  if ok.length = cand.length then ok else ok.filter fun (v, _) => v ≠ 20000

def fixedPdo (v i : Q) (flags : Nat) : Word := BitVec.ofNat 32 (flags + 1024 * (v / 50).floor.toNat + (i / 10).floor.toNat)

/-- The EPR objects that may be offered: above 100 W, to a partner of PD 3.x, on a cable for them (R238, R254, R256). -/
def eprObjects (s : State) (p : Fin 4) : List Word :=
  if 100000 < pSrcMax s p && s.usb[p].cable = 3 && !s.usb[p].pd20 then
    [(28000, 4), (36000, 5), (48000, 6)].filterMap fun ((v : Q), (b : Nat)) =>
      let i := objCurrent s p v 10
      if srcObject s p b && 500 ≤ i then some (fixedPdo v i 0) else none
  else []

def eprMayOffer (s : State) (p : Fin 4) : Bool := !(eprObjects s p).isEmpty

/-- The 5 V object with its flags (R254): bit 29 dual-role power, bit 25 dual-role data, bit 23 EPR capable. -/
def fiveVolt (s : State) (p : Fin 4) : Word :=
  fixedPdo 5000 (max 500 (objCurrent s p 5000 10))
    (2 ^ 29 * b2n (isDrp s p) + 2 ^ 25 * b2n (swapOption s p 2) + 2 ^ 23 * b2n (eprMayOffer s p))

/-- The PPS APDO from 3.30 V to 21.00 V. -/
def ppsObject (s : State) (p : Fin 4) : List Word :=
  let i := objCurrent s p 21000 50
  if srcObject s p 3 && 500 ≤ i && !s.usb[p].pd20 then
    [BitVec.ofNat 32 (3 * 2 ^ 30 + 210 * 2 ^ 17 + 33 * 2 ^ 8 + (i / 50).floor.toNat)]
  else []

def sprObjects (s : State) (p : Fin 4) : List Word :=
  fiveVolt s p :: (fixedObjects s p).map (fun (v, i) => fixedPdo v i 0) ++ ppsObject s p

/-- Source_Capabilities sent, with its objects kept; Anvil then waits for the Request (R246). -/
def sendSourceCaps (p : Fin 4) (s : State) : State :=
  let objs := sprObjects s p
  sendMsg p false 1 objs (onUsb p (fun u => { u with offered := objs, ask := .sourceCap }) s)

/-- Before the first Source_Capabilities: Discover Identity to SOP' as VCONN source (R256), else the capabilities; a cable whose VCONN
failed counts as one without an e-marker (R243). -/
def sourceReady (p : Fin 4) (s : State) : State :=
  let u := s.usb[p]
  if u.vconnSrc && !u.vconnBad && u.discTries < 3 && u.cable = 0 then
    sendMsg p true 15 [0xFF008001] (onUsb p (fun u => { u with ask := .discover }) s)
  else sendSourceCaps p s

/-- Attached.SRC: VBUS to vSafe5V, and VCONN with option bit 4 and VCONN_IN within its range (R243). -/
def attachSrc (p : Fin 4) (vconnIn : Bool) (s : State) : State :=
  let hit := s.usb[p].cAttach.hits
  let vc := swapOption s p 4 && vconnIn
  let i5 := max 500 (objCurrent s p 5000 10)
  let s1 := onUsb p (fun u => { clearAttach u with
    keys := attachKeys s p, tc := .attSrc, source := true, dfp := true, vconnSrc := vc, vconnOn := vc && raSeen u, origSource := true, origVconn := vc,
    path := .absent, cAttach := u.cAttach.bump, rpLevel := rpFor i5, dschg := false, seq := .rise }) s
  usbSat p 0 hit (attachEvent p (startVbus p s1.usb[p].vbus.last 5000 s1))

/-! ### Hard Reset (R265, R266) -/

/-- ErrorRecovery: CC open, channel off (causes in their order: third over-voltage, third Hard Reset, latch; log 19). -/
def errorRecovery (p : Fin 4) (cause : Nat) (s : State) : State :=
  let s1 := toUnattached p .errorRecovery s
  pushEvent 0x0607 [byte p.val, Config.eventCode 0x0607 cause] s1

/-- A power or VCONN swap is in progress. -/
def inSwap (u : Usb) : Bool :=
  u.seq = .swapDown || u.seq = .swapSink || u.seq = .swapWait || u.seq = .swapStart || u.seq = .swapUp || u.vconnWait ||
  u.ask = .prSwap || u.ask = .vconnSwap

/-- The port's own state after a Hard Reset: contracts and counters of the protocol go, roles as at attach in a swap; a cable whose
VCONN failed stays one without an e-marker until the detach (R243, R256, R265, R266). -/
def hardState (u : Usb) : Usb :=
  let back := inSwap u
  let src := if back then u.origSource else u.source
  { u with contract := {}, next := {}, ask := .none, askGone := false, reqSlot := none, waitDue := false, later := .none, epr := false,
           cable := if u.vconnBad then 1 else 0, swapOwn := false, vconnWait := false, bist := false,
           discTries := 0, sop := {}, sopP := {}, txBusy := none, txTries := 0, startDue := false, sinkTxOk := true,
           hrCount := u.hrCount + 1, source := src, dfp := if back then u.origSource else u.dfp,
           vconnSrc := if back then u.origVconn else u.vconnSrc, tc := if src then .attSrc else .attSnk }

/-- Sent, received, and then the causes, as the event counts them (log 19). -/
def hardCode (sent : Bool) (cause : Nat) : List Byte :=
  [Config.eventCode 0x0606 (if sent then 0 else 1), Config.eventCode 0x0606 (cause + 2)]

/-- R265: a Hard Reset sent or received by an attached port. -/
def hardReset (p : Fin 4) (sent : Bool) (cause : Nat) (s : State) : State :=
  let u := s.usb[p]
  if !attached u.tc then s
  else
    let wasSink := !u.source && u.path ≠ .absent
    let s1 := onUsb p (fun u => { hardState u with
      cHrSent := if sent then u.cHrSent.bump else u.cHrSent, cHrRecv := if sent then u.cHrRecv else u.cHrRecv.bump,
      hrAsked := sent }) s
    let s2 := if sent then pushRing 15 (pdEntry p 1 0 0 s.tb 0 [] 0) s1 else s1
    let s3 := pushEvent 0x0606 (byte p.val :: hardCode sent cause) s2
    let s4 := usbSat p 1 (sent && u.cHrSent.hits) (usbSat p 2 (!sent && u.cHrRecv.hits) s3)
    let s5 := if wasSink && !u.handover then plannedWithdraw p s4 else s4
    if 3 ≤ s5.usb[p].hrCount then errorRecovery p 1 s5
    else if s5.usb[p].source then
      drainVbus p .hrSource (onUsb p (fun u => { u with vconnOn := false }) s5)
    else
      let s6 := if u.source then haltChan (chanOfUsb p) s5 else s5
      onUsb p (fun x => { x with seq := .hrSink, vconnOn := x.vconnOn && !u.source, path := if u.source then .qualifying else x.path }) s6

/-! ### The sink's contract (R247 to R252) -/

/-- I_IN_MAX of the implicit contract by the Rp level, mA (R252). -/
def implicitCurrent (v : Fin 3) : Q := if v = 2 then 2700 else if v = 1 then 1350 else 450

/-- Contract floor: 0.90 × the contract voltage. -/
def sinkRef (u : Usb) : Q := 9 / 10 * u.contract.mv

/-- Implicit contract currents carry their own limit; explicit ones 0.97 × the operating current (R248, R252). -/
def sinkLimit (u : Usb) : Q := if u.contract.kind = .implicit then u.contract.ma else 97 / 100 * u.contract.ma

/-- I_CL of R154 with the sink's limit, θ applied (R318). -/
def sinkClampOf (s : State) (p : Fin 4) : Q :=
  let u := s.usb[p]
  let vr := s.ride.meas.mean
  if vr = 0 then 0 else s.chan[chanOfUsb p].theta * (u.kCorr * mwOf (sinkLimit u) u.vbus.mean * 1000 / vr)

/-- Ramping of a sink: the channel starts towards the contract's reference from the measured VBUS (R248). -/
def sinkRamp (p : Fin 4) (vbus : Q) (s : State) : State :=
  let c := chanOfUsb p
  let s1 := onUsb p (fun u => { u with path := .ramping, kCorr := 1 }) s
  let s2 := onChan c (fun h => { h with refOut := vbus, ramp := 0, rampTime := (usbKey s1 0x62C p : Q) }) (beginChan c s1)
  usbClamp p (sinkClampOf s2 p) (setRef c (sinkRef s2.usb[p]) (sourceSlew s2) s2)

/-- The current of pSnkStdby, 2.5 W, at the Ride, mA (R249). -/
def standbyClamp (s : State) : Q := if s.ride.meas.mean = 0 then 0 else 2500 * 1000 / s.ride.meas.mean

/-- A sink that sinks moves to a contract of another voltage: V_IN_REF slews from where it stands and the clamp ramps up from the one
of pSnkStdby, by R248's slew and ramp time. -/
def sinkMove (p : Fin 4) (s : State) : State :=
  let c := chanOfUsb p
  let goal := sinkClampOf s p
  let part := if goal ≤ standbyClamp s then 1 else standbyClamp s / goal
  let s1 := onChan c (fun h => { h with ramp := part, rampTime := (usbKey s 0x62C p : Q) }) (onUsb p (fun u => { u with path := .ramping }) s)
  usbClamp p goal (setRef c (sinkRef s1.usb[p]) (sourceSlew s1) s1)

/-- A port that qualifies may ramp in: a contract, no hand-over, VDRV above its threshold and check 3 of R151 kept (R248). A port that
breaks check 3 stays in Qualifying until its next contract (log 123). -/
def mayRamp (s : State) (p : Fin 4) : Bool :=
  let u := s.usb[p]
  u.path = .qualifying && u.tc = .attSnk && !u.source && u.contract.kind ≠ .none && u.next.kind = .none && !u.handover &&
  u.seq = .none && s.clk.vdrvOk && !u.qualBad

/-- A contract in force: an explicit one ends a run of Hard Resets; its event where it differs from the one before (R268; log 123). -/
def putContract (p : Fin 4) (k : Contract) (s : State) : State :=
  let old := s.usb[p].contract
  let s1 := onUsb p (fun u =>
    { u with contract := k, next := {}, ask := .none, hrCount := (if k.kind = .implicit then u.hrCount else 0), capWait := 0 }) s
  if old.kind = k.kind && old.pos = k.pos && old.mv = k.mv && old.ma = k.ma then s1 else contractEvent p s1

/-- EPR mode is entered after the first explicit SPR contract (R249). -/
def eprWanted (s : State) (p : Fin 4) : Bool :=
  let u := s.usb[p]
  !u.epr && !u.pd20 && 20000 < vSnkMax s p && 100000 < pSnkMax s p && (u.partner.headD 0).getLsbD 23 && (u.contract.kind = .fixed || u.contract.kind = .pps)

/-- A candidate of R247: contract kind, position, voltage and operating current. -/
def candidate (s : State) (p : Fin 4) (pos : Nat) (w : Word) : Option Contract :=
  let f (lo n : Nat) : Nat := field w lo n
  if f 30 2 = 0 then
    let v : Q := (f 10 10 : Nat) * 50
    let off : Q := (f 0 10 : Nat) * 10
    if v = 0 || vSnkMax s p < v then none
    else some { kind := if 20000 < v then .eprFixed else .fixed, pos := pos, mv := v,
                ma := gridDown (min (v * off / 1000) (pSnkMax s p) * 1000 / v) 10, pdo := w }
  else if f 30 2 = 3 && f 28 2 = 0 && !s.usb[p].pd20 then
    let lo : Q := (f 8 8 : Nat) * 100
    let hi : Q := (f 17 8 : Nat) * 100
    let off : Q := (f 0 7 : Nat) * 50
    if vSnkMax s p < lo then none
    else
      let v := max lo (gridDown (min (min (120 / 100 * finalTarget s) (vSnkMax s p)) hi) 20)
      if v = 0 then none
      else some { kind := .pps, pos := pos, mv := v, ma := gridDown (min (v * off / 1000) (pSnkMax s p) * 1000 / v) 50, pdo := w }
  else none

/-- The power a candidate is judged by: min(V × I_offered, P_SNK_MAX), mW. -/
def candPower (s : State) (p : Fin 4) (c : Contract) : Q :=
  let off : Q := if c.kind = .pps then (field c.pdo 0 7 : Nat) * 50 else (field c.pdo 0 10 : Nat) * 10
  min (c.mv * off / 1000) (pSnkMax s p)

/-- Greatest power; ties to PPS before Fixed, then to the lower voltage. -/
def better (s : State) (p : Fin 4) (a b : Contract) : Contract :=
  let x := candPower s p a
  let y := candPower s p b
  if x < y then b else if y < x then a
  else if a.kind = .pps && b.kind ≠ .pps then a else if b.kind = .pps && a.kind ≠ .pps then b
  else if b.mv < a.mv then b else a

def chooseObject (s : State) (p : Fin 4) (objs : List Word) : Option Contract :=
  match (objs.zipIdx 1).filterMap fun (w, i) => candidate s p i w with
  | [] => none
  | c :: cs => some (cs.foldl (better s p) c)

/-- The Request's data object (USB PD; log 20): position, then current and, for PPS, voltage. -/
def rdoOf (c : Contract) : Word :=
  if c.kind = .pps then BitVec.ofNat 32 (2 ^ 28 * c.pos + 2 ^ 9 * (c.mv / 20).floor.toNat + (c.ma / 50).floor.toNat)
  else BitVec.ofNat 32 (2 ^ 28 * c.pos + 2 ^ 10 * (c.ma / 10).floor.toNat + (c.ma / 10).floor.toNat)

def sendRequest (p : Fin 4) (c : Contract) (s : State) : State :=
  let r := rdoOf c
  sendMsg p false (if s.usb[p].epr then 9 else 2) (if s.usb[p].epr then [r, c.pdo] else [r])
    (onUsb p (fun u => { u with next := { c with rdo := r }, ask := .request }) s)

/-! ### Exchanges of the policy engine -/

/-- A port's own atomic sequence: as PD 3.x source first SinkTxNG, the message tSinkTx later; as sink only at SinkTxOK (R262). -/
def askMessage : Ask → Nat
  | .prSwap => ctlPrSwap | .drSwap => ctlDrSwap | .vconnSwap => ctlVconnSwap | _ => 0

def initiate (p : Fin 4) (a : Ask) (s : State) : State :=
  let u := s.usb[p]
  if u.pd20 then send p (askMessage a) (onUsb p (fun u => { u with ask := a }) s)
  else if u.source then onUsb p (fun u => { u with ask := a, waitDue := true, sinkTxOk := false }) s
  else if u.sinkTxOk then send p (askMessage a) (onUsb p (fun u => { u with ask := a }) s)
  else onUsb p (fun u => { u with later := a }) s

/-- An incoming swap that found the source's own sequence under way is answered with Wait once that has ended (R262). -/
def answerSlot (p : Fin 4) (s : State) : State :=
  if s.usb[p].reqSlot.isSome then send p ctlWait (onUsb p (fun u => { u with reqSlot := none }) s) else s

/-- A sequence of the port's own ends: SinkTxOK again (R262). -/
def endAsk (p : Fin 4) (s : State) : State :=
  answerSlot p (onUsb p (fun u => { u with ask := .none, waitDue := false, sinkTxOk := if u.source then true else u.sinkTxOk }) s)

/-- As initial source of a PR_Swap VBUS goes down after tSrcTransition; as initial sink a planned withdrawal runs (R261). -/
def beginPrSwap (p : Fin 4) (own : Bool) (s : State) : State :=
  let s1 := onUsb p (fun u => { u with
    swapOwn := own, contract := {}, next := {}, later := .none, seq := if u.source then .swapDown else .swapWait }) s
  if s.usb[p].source then s1 else if s.usb[p].handover then s1 else plannedWithdraw p s1

/-- The initial sink becomes source: VBUS starts once tSwapSourceStart and the hand-over have ended. -/
def swapRise (p : Fin 4) (s : State) : State :=
  let s1 := onUsb p (fun u => { u with seq := .swapUp, startDue := false, path := .absent }) s
  startVbus p s1.usb[p].vbus.last 5000 s1

/-- A VCONN_Swap accepted: the port that becomes VCONN source supplies it and says so with PS_RDY; the one that was keeps VCONN on until
the partner's PS_RDY (USB PD; log 20). A power source that has just become VCONN source discovers the cable (R256). -/
def swapVconn (p : Fin 4) (own : Bool) (s : State) : State :=
  if s.usb[p].vconnSrc then onUsb p (fun u => { u with vconnWait := true, swapOwn := own }) s
  else
    let s1 := swapEvent p .vconn own true (send p ctlPsRdy
      (onUsb p (fun u => { u with vconnSrc := true, vconnOn := !u.vconnBad }) s))
    if own && s1.usb[p].source then sourceReady p s1 else s1

/-- Accept received for the port's own request. -/
def onAccept (p : Fin 4) (s : State) : State :=
  let u := s.usb[p]
  match u.ask with
  | .request =>
    let s1 := onUsb p (fun u => { u with ask := .none }) s
    -- the clamp that draws pSnkStdby until PS_RDY (R249)
    if u.next.mv ≠ u.contract.mv && (u.path = .ramping || u.path = .delivering) then
      usbClamp p (standbyClamp s) (annAbandon (chanOfUsb p) s1)
    else s1
  | .prSwap => beginPrSwap p true (endAsk p s)
  | .drSwap => swapEvent p .dr true true (endAsk p (onUsb p (fun u => { u with dfp := !u.dfp }) s))
  | .vconnSwap => swapVconn p true (endAsk p s)
  | .softReset =>
    let s1 := onUsb p (fun u => { u with ask := .none }) s
    if u.source then sendSourceCaps p s1 else s1
  | _ => s

/-- Reject, Wait or Not_Supported for the port's own request. -/
def onRefusal (p : Fin 4) (s : State) : State :=
  let u := s.usb[p]
  match u.ask with
  | .request => onUsb p (fun u => { u with ask := .none, next := {} }) s
  | .prSwap => swapEvent p .pr true false (endAsk p s)
  | .drSwap => swapEvent p .dr true false (endAsk p s)
  | .vconnSwap => swapEvent p .vconn true false (endAsk p s)
  | _ => s

/-- PS_RDY of the partner: in a VCONN_Swap VCONN goes off; in a PR_Swap the initial sink's Rd becomes Rp, and for the initial source the
swap is complete (R261, R264). -/
def onPsRdy (p : Fin 4) (s : State) : State :=
  let u := s.usb[p]
  if u.vconnWait then
    swapEvent p .vconn u.swapOwn true (onUsb p (fun u => { u with vconnWait := false, vconnSrc := false, vconnOn := false }) s)
  else match u.seq with
    | .swapSink => swapEvent p .pr u.swapOwn true (onUsb p (fun u => { u with seq := .none, path := .qualifying }) s)
    | .swapWait => onUsb p (fun u => { u with seq := .swapStart, source := true, tc := .attSrc }) s
    | _ => s

/-- A source transition is under way: a message between Accept and PS_RDY leads to Hard Reset (R257). -/
def inTransition (u : Usb) : Bool := u.seq = .accepted || u.seq = .moving

/-- PPS_Status: voltage in 20 mV, current in 50 mA, and bit 3 of the flags in current-limit mode (R258; USB PD, log 20). -/
def ppsStatus (u : Usb) : List Byte :=
  quantU 2 (u.vbus.mean / 20) ++ quantU 1 (u.i.mean.abs / 50) ++ [byte (8 * b2n u.ppsLimit)]

/-- EPR mode entered as source: acknowledged, entered, and EPR_Source_Capabilities with the EPR objects from position 8 (R254; USB PD,
log 20). -/
def enterEpr (p : Fin 4) (s : State) : State :=
  let objs := (sprObjects s p ++ List.replicate 7 0).take 7 ++ eprObjects s p
  sendExt p 17 (objs.flatMap le32) (sendMsg p false 10 [0x03000000] (sendMsg p false 10 [0x02000000]
    (onUsb p (fun u => { u with epr := true, offered := objs, ask := .sourceCap }) s)))

/-- Messages of no row of their own (R238, R246): answers, and requests for information. -/
def onPlain (p : Fin 4) (m : PdMsg) (s : State) : State :=
  let u := s.usb[p]
  if inTransition u then hardReset p true 4 s
  else match m with
  | .accept => if u.askGone then onUsb p (fun u => { u with askGone := false }) s else onAccept p s
  | .reject | .wait | .notSupported =>
    if u.askGone then onUsb p (fun u => { u with askGone := false }) s else onRefusal p s
  | .psRdy => onPsRdy p s
  | .getSourceCap => if isDrp s p || u.source then sendSourceCaps p s else send p ctlNotSupported s
  | .getStatus => if u.pd20 then send p ctlNotSupported s else sendFree p 2 7 [] s
  | .getPpsStatus => if u.source && !u.pd20 then sendExt p 12 (ppsStatus u) s else send p ctlNotSupported s
  | .getSourceCapExtended =>
    if u.source && !u.pd20 then sendFree p 1 25 (le 2 (usbShared s p 0x640) ++ le 2 (usbShared s p 0x641) ++ le 4 (usbShared s p 0x643)) s
    else send p ctlNotSupported s
  | .eprModeEnter => if u.source && eprMayOffer s p then enterEpr p s else send p ctlNotSupported s
  | .eprKeepAlive => if u.source && u.epr then sendExt p 16 [4, 0] s else send p ctlNotSupported s
  | .bist data => if data then onUsb p (fun u => { u with bist := true }) s else s
  | .frSwap | .unknown => send p ctlNotSupported s
  | _ => s

/-- Messages whose policy is a row of its own. -/
def hasRow : PdMsg → Bool
  | .sourceCaps _ | .eprSourceCaps _ | .request _ | .prSwap | .drSwap | .vconnSwap | .softReset | .discoverIdentityReq
  | .otherVdm _ => true
  | _ => false

/-! ### Rows: attachment -/

/-- What waited for SinkTxOK starts (R262). -/
def startLater (p : Fin 4) (s : State) : State :=
  let u := s.usb[p]
  let s1 := onUsb p (fun u => { u with later := .none }) s
  match u.later with
  | .none => s
  | .request => if u.contract.kind = .pps && u.ask = .none then sendRequest p u.contract s1 else s1
  | .eprEnter => sendMsg p false 10 [0x01000000] s1
  | .keepAlive => sendExt p 16 [3, 0] s1
  | a => initiate p a s1

/-- The Rp of the partner as an attached sink: SinkTxOK, and the level of an implicit contract (R252, R262). -/
def sinkSees (p : Fin 4) (s : State) : State :=
  let u := s.usb[p]
  if u.tc = .attSnk && !u.source && isRp u.view then
    let rp := rpOf u.view u.rpLevel
    let s1 := onUsb p (fun u => { u with
      rpLevel := rp, sinkTxOk := decide (u.view = .rp30),
      contract := if u.contract.kind = .implicit then { u.contract with ma := implicitCurrent rp } else u.contract }) s
    if u.view = .rp30 && anvilUp s then startLater p s1 else s1
  else s

/-- R240: the CC pins; every change is pushed to Q14 (R245). -/
def execCcChange (port : Fin 4) (view : CcView) (s : State) : Host.Outcome State Fault Refusal :=
  .next (if !usbEn s port || !s.clk.vcc then onUsb port (fun u => { u with view := view }) s
    else
      let s1 := onUsb port (fun u => { u with
        view := view, tc := if u.tc = .attWaitSrc && !isRd view then .unattSrc else u.tc }) s
      let s2 := wantRunning 2 (pushQ14 port (pdEntry port 3 0 0 s.tb 0 [] 0) (sinkSees port (if usbActive s port then seeCc port s1 else s1)))
      if anvilUp s then takeQ14 port s2 else s2)

/-- A detach: as sink a planned withdrawal, as source VBUS to vSafe0V (R240, R251). -/
def detach (p : Fin 4) (s : State) : State :=
  if s.usb[p].source then
    if s.usb[p].seq = .drain then s else drainVbus p .drain (onUsb p (fun u => { u with vconnOn := false }) s)
  else lostWithdraw p (onUsb p (fun u => { u with seq := .none }) s)

/-- R240: tCCDebounce in the AttachWait states, tPDDebounce for a detach and in the Try states. A sink in a PR_Swap sees its partner's
Rp go and come. -/
def execTypecDebounceExpiry (port : Fin 4) (vbusSafe5V vconnInOk : Bool) (s : State) : Host.Outcome State Fault Refusal :=
  let u := s.usb[port]
  .next (match u.tc with
    | .attWaitSnk =>
      if isRp u.view then
        if !vbusSafe5V then s
        else if rolePolicy s port = 3 && !u.barred then onUsb port (fun u => { u with tc := .trySrc }) s
        else attachSnk port s
      else onUsb port (fun u => { u with tc := .unattSnk, path := .absent }) s
    | .attWaitSrc =>
      if isRd u.view then
        if rolePolicy s port = 2 then onUsb port (fun u => { u with tc := .trySnk }) s else attachSrc port vconnInOk s
      else onUsb port (fun u => { u with tc := .unattSrc }) s
    | .trySnk | .tryWaitSnk => if isRp u.view && vbusSafe5V then attachSnk port s else s
    | .trySrc | .tryWaitSrc => if isRd u.view then attachSrc port vconnInOk s else s
    | .attSnk => if isRp u.view || u.seq = .swapWait || u.seq = .swapSink then s else detach port s
    | .attSrc => if isRd u.view then s else detach port s
    | _ => s)

def execDrpToggle (port : Fin 4) (s : State) : Host.Outcome State Fault Refusal :=
  .next (if isDrp s port && usbActive s port && !s.usb[port].barred then
      match s.usb[port].tc with
      | .unattSnk => seeCc port (onUsb port (fun u => { u with tc := .unattSrc, rpLevel := rpFor (max 500 (objCurrent s port 5000 10)) }) s)
      | .unattSrc => seeCc port (onUsb port (fun u => { u with tc := .unattSnk }) s)
      | _ => s
    else s)

/-- Try.SNK and Try.SRC end with their partner seen, or go on in TryWait of the other role; TryWait ends with its partner seen, or
Unattached.SNK (R240; the Type-C specification, log 20). -/
def execTryTimerExpiry (port : Fin 4) (partnerSeen vconnInOk : Bool) (s : State) : Host.Outcome State Fault Refusal :=
  let to_ (t : TypeC) : State := onUsb port (fun u => { u with tc := t }) s
  .next (match s.usb[port].tc with
    | .trySnk => if partnerSeen then attachSnk port s else to_ .tryWaitSrc
    | .tryWaitSrc => if partnerSeen then attachSrc port vconnInOk s else to_ .unattSnk
    | .trySrc => if partnerSeen then attachSrc port vconnInOk s else to_ .tryWaitSnk
    | .tryWaitSnk => if partnerSeen then attachSnk port s else seeCc port (to_ .unattSnk)
    | _ => s)

/-- tErrorRecovery or the 60 s hold ends (R240, R253, R260). -/
def execErrorRecoveryEnd (port : Fin 4) (s : State) : Host.Outcome State Fault Refusal :=
  let u := s.usb[port]
  .next (if u.tc = .errorRecovery then seeCc port (onUsb port (fun u => { u with tc := unattachedOf s port }) s)
    else if u.tc = .disabled && u.held60 then
      let s1 := onUsb port (fun u => { u with held60 := false }) s
      seeCc port (onUsb port (fun u => { u with tc := unattachedOf s1 port }) s1)
    else s)

/-- nHardResetCount of the PD specification (log 20). -/
def nHardReset : Nat := 2

/-- R252. -/
def execSinkWaitCapTimeout (port : Fin 4) (s : State) : Host.Outcome State Fault Refusal :=
  let u := s.usb[port]
  .next (if u.tc = .attSnk && !u.source && u.contract.kind = .none && u.next.kind = .none && u.seq = .none && anvilUp s then
      if u.capWait < nHardReset then
        hardReset port true 1 (onUsb port (fun u => { u with capWait := u.capWait + 1 }) s)
      else
        let s1 := putContract port { kind := .implicit, mv := 5000, ma := implicitCurrent u.rpLevel } s
        if mayRamp s1 port then sinkRamp port s1.usb[port].vbus.last s1 else s1
    else s)

/-! ### Rows: protocol layer (R244) -/

def layerOf (u : Usb) (sopP : Bool) : PdLayer := if sopP then u.sopP else u.sop
def setLayer (sopP : Bool) (f : PdLayer → PdLayer) (u : Usb) : Usb :=
  if sopP then { u with sopP := f u.sopP } else { u with sop := f u.sop }

/-- The entry of a received message: the PHY's own fields, then header and data as received (R245). -/
def receivedEntry (p : Fin 4) (sopP : Bool) (m : PdMsg) (tb : TB) (entry : List Byte) : List Byte :=
  let kind := match m with | .bist _ => 4 | _ => 0
  [byte p.val, byte kind, byte (b2n sopP), 0] ++ le 4 (tb.toNat : Nat) ++ slice entry 8 34 ++ [0, 0, 0, 0, 0, 0]

/-- A valid message: stored, acknowledged, pushed to Q14 unless it repeats; Anvil acts on those of no row of their own. On SOP its
revision says whether the partner uses Revision 2.0 (R238). In BIST Test Data it is acknowledged only (log 20). A port whose hold buffer
overflowed answers its next entry with Hard Reset (R329). -/
def execPdMessageReceived (port : Fin 4) (sopPrime : Bool) (id : BitVec 3) (msg : PdMsg) (entry : List Byte) (s : State) :
    Host.Outcome State Fault Refusal :=
  let u := s.usb[port]
  .next (if !attached u.tc || (sopPrime && !u.vconnSrc) || msg = .goodCrc || u.bist then s
    else if (layerOf u sopPrime).stored = some id && msg ≠ .softReset then s
    else
      let old := ofLe (slice entry 8 2) / 64 % 4 < 2
      let s1 := pushQ14 port (receivedEntry port sopPrime msg s.tb entry)
        (onUsb port (fun u => setLayer sopPrime (fun l => { l with stored := some id }) { u with pd20 := if sopPrime then u.pd20 else old }) s)
      if !anvilUp s then s1
      else if u.holdLost then hardReset port true 9 (takeQ14 port (onUsb port (fun u => { u with holdLost := false }) s1))
      else if hasRow msg || (msg = .psRdy && u.next.kind ≠ .none) then s1
      else onPlain port msg (takeQ14 port s1))

/-- The next Q15 entry addressed to the port, the index past it (R24). -/
def nextForPort (p : Fin 4) (i : Half) : List Entry → Option (List Byte × Half)
  | [] => none
  | e :: es => if (byteAt e.bytes 0).toNat % 4 = p.val then some (e.bytes, i + 1) else nextForPort p (i + 1) es

def pdResult (p : Fin 4) (e : List Byte) (res : Nat) (s : State) : State :=
  pushQ14 p (pdEntry p 2 (byteAt e 2).toNat res s.tb (ofLe (slice e 8 2)) [] (BitVec.ofNat 16 (ofLe (slice e 42 2)))) s

/-- Soft_Reset sent: the MessageIDs of SOP start again (R244). -/
def softReset (p : Fin 4) (s : State) : State :=
  send p ctlSoftReset (onUsb p (fun u => { u with sop := {}, ask := .softReset, next := {}, waitDue := false }) s)

/-- A transmission that failed for good: counted; a Soft_Reset that failed leads to Hard Reset, a failed discovery to the next
attempt or the capabilities, another message to Soft_Reset (R256, R265; USB PD, log 20). -/
def txFailed (p : Fin 4) (e : List Byte) (s : State) : State :=
  let hit := s.usb[p].cTxFail.hits
  let s1 := usbSat p 4 hit (onUsb p (fun u => { u with cTxFail := u.cTxFail.bump, txBusy := none }) (pdResult p e 1 s))
  let typ := ofLe (slice e 8 2) % 32
  let ctl := ofLe (slice e 8 2) / 4096 % 8 = 0
  if !anvilUp s then s1
  else if ctl && typ = ctlSoftReset then hardReset p true 8 (takeQ14 p s1)
  else if s1.usb[p].ask = .discover then
    sourceReady p (takeQ14 p (onUsb p (fun u => { u with discTries := u.discTries + 1, ask := .none }) s1))
  else softReset p (takeQ14 p s1)

def txSent (p : Fin 4) (e : List Byte) (s : State) : State :=
  let sopP := decide (byteAt e 2 = 1)
  let s1 := onUsb p (fun u => { setLayer sopP (fun l => { l with txId := l.txId + 1 }) u with txBusy := none }) (pdResult p e 0 s)
  if anvilUp s then takeQ14 p s1 else s1

/-- The PHY takes its next Q15 entry: Hard Reset signalling, a discarded transmission, or a message and its GoodCRC. -/
def execPdTransmit (port : Fin 4) (receiving : Bool) (goodCrc : Bool) (s : State) : Host.Outcome State Fault Refusal :=
  let key : BitVec 4 := BitVec.ofNat 4 port.val
  let u := s.usb[port]
  .next (match indexOf s.ring[15] key with
    | none => s
    | some i =>
      let r := s.ring[15]
      let es := r.entries.drop (r.entries.length - lagOf r i)
      match nextForPort port i es with
      | none => unstall 15 (putRing 15 (moveIndex key r.p r) s)
      | some (e, j) =>
        let s1 := unstall 15 (putRing 15 (moveIndex key j r) s)
        if u.txBusy.isSome then s
        else if byteAt e 1 = 1 then onUsb port (fun u => { u with hrAsked := false, sop := {}, sopP := {} }) s1
        else if receiving then
          let s2 := pdResult port e 2 s1
          if anvilUp s then takeQ14 port s2 else s2
        else if goodCrc then txSent port e s1
        else onUsb port (fun u => { u with txBusy := some e, txTries := 0 }) s1)

/-- nRetryCount: 2 at Revision 3.1, 3 at Revision 2.0. -/
def execPdRetry (port : Fin 4) (goodCrc : Bool) (s : State) : Host.Outcome State Fault Refusal :=
  let u := s.usb[port]
  .next (match u.txBusy with
    | none => s
    | some e =>
      if goodCrc then txSent port e s
      else if (if u.pd20 then 3 else 2) ≤ u.txTries + 1 then txFailed port e s
      else onUsb port (fun u => { u with txTries := u.txTries + 1 }) s)

/-! ### Rows: sink policy -/

def execSourceCapabilities (port : Fin 4) (objects : List Word) (epr : Bool) (s : State) : Host.Outcome State Fault Refusal :=
  let u := s.usb[port]
  .next (if u.tc = .attSnk && !u.source && anvilUp s then
      let s1 := onUsb port (fun u => { u with
        partner := objects, capWait := 0, epr := u.epr || epr,
        seq := if u.seq = .hrSink || u.seq = .hrSinkLow then .none else u.seq }) (takeQ14 port s)
      match chooseObject s1 port objects with
      | some c => sendRequest port c s1
      | none => s1
    else s)

/-- R248, R249: the contract is in force and the ramp begins, once a running hand-over is complete (R251). -/
def execSinkPsRdy (port : Fin 4) (vbus : Q) (s : State) : Host.Outcome State Fault Refusal :=
  let u := s.usb[port]
  .next (if u.tc = .attSnk && !u.source && u.next.kind ≠ .none && u.ask ≠ .request && anvilUp s then
      let s1 := putContract port u.next (takeQ14 port s)
      let s2 := if !explicit u.contract.kind && eprWanted s1 port then
          (if u.sinkTxOk || u.pd20 then sendMsg port false 10 [0x01000000] s1 else onUsb port (fun u => { u with later := .eprEnter }) s1)
        else s1
      if u.path = .ramping || u.path = .delivering then
        (if u.next.mv = u.contract.mv then usbClamp port (sinkClampOf s2 port) s2 else annAbandon (chanOfUsb port) (sinkMove port s2))
      else if mayRamp s2 port then sinkRamp port vbus s2 else s2
    else s)

/-- R249: the Request repeated, at SinkTxOK with a PD 3.x source (R262). -/
def execPpsRequestPeriod (port : Fin 4) (s : State) : Host.Outcome State Fault Refusal :=
  let u := s.usb[port]
  .next (if u.tc = .attSnk && u.contract.kind = .pps && u.ask = .none && anvilUp s then
      if u.sinkTxOk then sendRequest port u.contract s else onUsb port (fun u => { u with later := .request }) s
    else s)

/-- EPR_KeepAlive, an extended control message (USB PD; log 20). -/
def execEprKeepalive (port : Fin 4) (s : State) : Host.Outcome State Fault Refusal :=
  let u := s.usb[port]
  .next (if u.tc = .attSnk && !u.source && u.epr && anvilUp s then
      if u.sinkTxOk then sendExt port 16 [3, 0] s else onUsb port (fun u => { u with later := .keepAlive }) s
    else s)

/-! ### Rows: source policy -/

/-- The contract a Request names, where it is acceptable (R257). -/
def requested (u : Usb) (rdo : Word) : Option Contract :=
  let pos := field rdo 28 4
  match (if pos = 0 then none else u.offered[pos - 1]?) with
  | none => none
  | some w =>
    if field w 30 2 = 3 then
      let v : Q := (field rdo 9 12 : Nat) * 20
      let i : Q := (field rdo 0 7 : Nat) * 50
      if (field w 8 8 : Nat) * 100 ≤ v && v ≤ (field w 17 8 : Nat) * 100 && i ≤ (field w 0 7 : Nat) * 50 then
        some { kind := .pps, pos := pos, mv := v, ma := i, pdo := w, rdo := rdo }
      else none
    else
      let v : Q := (field w 10 10 : Nat) * 50
      let i : Q := (field rdo 10 10 : Nat) * 10
      if i ≤ (field w 0 10 : Nat) * 10 then
        some { kind := if 20000 < v then .eprFixed else .fixed, pos := pos, mv := v, ma := i, pdo := w, rdo := rdo }
      else none

def execSourceRequest (port : Fin 4) (rdo : Word) (s : State) : Host.Outcome State Fault Refusal :=
  let u := s.usb[port]
  .next (if u.tc = .attSrc && u.source && anvilUp s then
      let s1 := takeQ14 port s
      if inTransition u then hardReset port true 4 s1
      else if u.seq ≠ .none then s1
      else match requested u rdo with
        | some c => send port ctlAccept (onUsb port (fun u => { u with next := c, ask := .none, seq := .accepted }) s1)
        | none => answerSlot port (send port ctlReject (onUsb port (fun u => { u with ask := .none }) s1))
    else s)

/-- 30 ms after the Accept: the target of a contract, or VBUS down in a PR_Swap (R257, R261); a run of Annealing is abandoned (R269). -/
def execSourceTransitionStart (port : Fin 4) (s : State) : Host.Outcome State Fault Refusal :=
  let u := s.usb[port]
  let c := chanOfUsb port
  .next (if u.source && u.seq = .accepted then
      let slew := if u.next.kind = .pps then ppsSlew s port else fixedSlew s port
      srcClamp port (srcClampFor u.next)
        (setRef c u.next.mv slew (annAbandon c (onUsb port (fun u => { u with seq := .moving }) s)))
    else if u.source && u.seq = .swapDown then drainVbus port .swapDown (annAbandon c s)
    else s)

def execPpsTimeout (port : Fin 4) (s : State) : Host.Outcome State Fault Refusal :=
  let u := s.usb[port]
  .next (if u.tc = .attSrc && u.source && u.contract.kind = .pps && anvilUp s then hardReset port true 5 s else s)

/-- R246: the reply to one of Anvil's own requests did not come. -/
def execSenderResponseTimeout (port : Fin 4) (s : State) : Host.Outcome State Fault Refusal :=
  let u := s.usb[port]
  .next (if !attached u.tc || !anvilUp s then s
    else match u.ask with
      | .none | .eprEnter | .keepAlive => s
      | .request | .sourceCap | .softReset => hardReset port true 3 s
      | .prSwap | .drSwap | .vconnSwap => endAsk port s
      | .discover => sourceReady port (onUsb port (fun u => { u with discTries := u.discTries + 1, ask := .none }) s))

/-! ### Rows: swaps -/

/-- R261: whether a received PR_Swap is accepted. -/
def prSwapOk (s : State) (p : Fin 4) : Bool :=
  swapOption s p 0 && isDrp s p && (s.usb[p].source || (!s.usb[p].barred && s.ride.tier ≠ 3 && s.ride.tier ≠ 4))

/-- A request of the port's own is abandoned by a sink, and the incoming one answered (R262). R262 says so of an incoming PR_Swap; the
model does the same on an incoming DR_Swap or VCONN_Swap (log 123). -/
def abandonAsk (p : Fin 4) (s : State) : State :=
  if s.usb[p].ask = .none then s
  else onUsb p (fun u => { u with ask := .none, askGone := true, waitDue := false, next := {} }) s

/-- A source that awaits a reply of its own. -/
def sourceBusy (u : Usb) : Bool := u.source && u.ask ≠ .none

/-- A received swap: Hard Reset in a source transition, Wait later to a busy source, else answered. -/
def answerSwap (p : Fin 4) (k : SwapKind) (ok : Bool) (act : State → State) (s : State) : State :=
  let u := s.usb[p]
  let s1 := takeQ14 p s
  if inTransition u then hardReset p true 4 s1
  else if sourceBusy u then onUsb p (fun u => { u with reqSlot := some k }) s1
  else
    let s2 := if u.source then s1 else abandonAsk p s1
    if ok then act (send p ctlAccept s2) else swapEvent p k false false (send p ctlReject s2)

def execPrSwap (port : Fin 4) (s : State) : Host.Outcome State Fault Refusal :=
  .next (if attached s.usb[port].tc && anvilUp s then answerSwap port .pr (prSwapOk s port) (beginPrSwap port false) s else s)

/-- R261: once per attach, towards the preferred role. -/
def execPrSwapInitiate (port : Fin 4) (s : State) : Host.Outcome State Fault Refusal :=
  let u := s.usb[port]
  .next (if attached u.tc && anvilUp s && !u.swapDone && isDrp s port && swapOption s port 1 && u.ask = .none && u.seq = .none &&
            explicit u.contract.kind && u.source ≠ swapOption s port 5 then
      initiate port .prSwap (onUsb port (fun u => { u with swapDone := true }) s)
    else s)

/-- R263. -/
def execDrSwap (port : Fin 4) (s : State) : Host.Outcome State Fault Refusal :=
  .next (if attached s.usb[port].tc && anvilUp s then
      answerSwap port .dr (swapOption s port 2)
        (fun s => swapEvent port .dr false true (onUsb port (fun u => { u with dfp := !u.dfp }) s)) s
    else s)

/-- R264. -/
def execVconnSwap (port : Fin 4) (vconnInOk : Bool) (s : State) : Host.Outcome State Fault Refusal :=
  .next (if attached s.usb[port].tc && anvilUp s then
      answerSwap port .vconn (swapOption s port 3 && (s.usb[port].vconnSrc || (swapOption s port 4 && vconnInOk)))
        (swapVconn port false) s
    else s)

/-- R261: the initial sink drives VBUS once its hand-over is complete; otherwise at its completion. -/
def execTSwapSourceStartExpiry (port : Fin 4) (vbus : Q) (s : State) : Host.Outcome State Fault Refusal :=
  let u := s.usb[port]
  .next (if u.seq = .swapStart then
      let s1 := onUsb port (fun u => { u with vbus := { u.vbus with last := vbus } }) s
      if u.handover then onUsb port (fun u => { u with startDue := true }) s1 else swapRise port s1
    else s)

/-- R262: the first message of the source's own sequence. -/
def execTSinkTxExpiry (port : Fin 4) (s : State) : Host.Outcome State Fault Refusal :=
  let u := s.usb[port]
  .next (if u.waitDue && askMessage u.ask ≠ 0 && anvilUp s then
      send port (askMessage u.ask) (onUsb port (fun u => { u with waitDue := false }) s)
    else s)

/-! ### Rows: resets, identity -/

/-- R244, R269: the MessageIDs of the type are reset; the contract and VBUS stay; a source sends its capabilities again. -/
def execSoftResetReceived (port : Fin 4) (sopPrime : Bool) (s : State) : Host.Outcome State Fault Refusal :=
  let u := s.usb[port]
  .next (if attached u.tc then
      let s1 := usbSat port 3 u.cSoft.hits
        (onUsb port (fun u => { setLayer sopPrime (fun _ => {}) u with cSoft := u.cSoft.bump }) s)
      if !anvilUp s then s1
      else
        let s2 := send port ctlAccept (takeQ14 port (onUsb port (fun u => { u with ask := .none, later := .none, next := if inTransition u then u.next else {} }) s1))
        if u.source && !sopPrime && u.seq = .none then sendSourceCaps port s2 else s2
    else s)

/-- The identity VDOs of SOP: VID and product types, XID, product and bcdDevice (keys 0x0640 to 0x0644; USB PD, log 20). -/
def identityVdos (s : State) (p : Fin 4) : List Word :=
  let pt := (usbShared s p 0x644).toNat
  [BitVec.ofNat 32 (0xFF008041 : Nat),
   BitVec.ofNat 32 ((pt % 8) * 2 ^ 27 + (pt / 8 % 8) * 2 ^ 23 + (usbShared s p 0x640).toNat),
   BitVec.ofNat 32 (usbShared s p 0x643).toNat, BitVec.ofNat 32 ((usbShared s p 0x641).toNat * 2 ^ 16 + (usbShared s p 0x642).toNat)]

/-- R256, and R238 and R239 for a request on SOP. -/
def execDiscoverIdentity (port : Fin 4) (towardsCable : Bool) (cable : Option (Fin 4)) (s : State) :
    Host.Outcome State Fault Refusal :=
  let u := s.usb[port]
  .next (if !attached u.tc || !anvilUp s then s
    else if towardsCable then
      if u.ask ≠ .discover then s
      else match cable.filter (· ≠ 0) with
        | some c =>
          sendSourceCaps port (pushEvent 0x0608 [byte port.val, byte c.val]
            (takeQ14 port (onUsb port (fun u => { u with cable := c, ask := .none }) s)))
        | none => sourceReady port (onUsb port (fun u => { u with discTries := u.discTries + 1, ask := .none }) s)
    else
      let s1 := takeQ14 port s
      if inTransition u then hardReset port true 4 s1
      else if usbShared s port 0x640 = 0 then sendMsg port false 15 [0xFF008081] s1 else sendMsg port false 15 (identityVdos s port) s1)

/-- R238: NAK to a structured VDM, Not_Supported to an unstructured one. -/
def execVdmReceived (port : Fin 4) (structured : Bool) (s : State) : Host.Outcome State Fault Refusal :=
  .next (if attached s.usb[port].tc && anvilUp s then
      let s1 := takeQ14 port s
      if inTransition s.usb[port] then hardReset port true 4 s1
      else if structured then sendMsg port false 15 [0xFF008080] s1 else send port ctlNotSupported s1
    else s)

/-- R265: a received Hard Reset, or one sent; one that Anvil has asked for itself has its effects already. -/
def execHardResetReceived (port : Fin 4) (sent : Bool) (partnerDrivesVbus : Bool) (s : State) : Host.Outcome State Fault Refusal :=
  let u := s.usb[port]
  let mark (s : State) : State := onUsb port (fun u => { u with partnerDrives := partnerDrivesVbus && u.source }) s
  .next (if !attached u.tc then s
    else if sent && u.hrAsked then mark (onUsb port (fun u => { u with hrAsked := false }) s)
    else
      let s1 := if sent then s else pushQ14 port (pdEntry port 1 0 0 s.tb 0 [] 0) s
      if anvilUp s then mark (hardReset port sent 0 (takeQ14 port s1))
      else onUsb port (fun u => { u with sop := {}, sopP := {} }) s1)

/-- R265, R266: once the partner drives VBUS no more, vSafe5V again from the measured voltage, VCONN restored; Source_Capabilities follow at vSafe5V. -/
def execSrcRecoverEnd (port : Fin 4) (vbus : Q) (vconnInOk : Bool) (s : State) : Host.Outcome State Fault Refusal :=
  let u := s.usb[port]
  .next (if u.tc = .attSrc && u.seq = .hrSource && !u.partnerDrives then
      startVbus port vbus 5000 (onUsb port (fun u => { u with
        seq := .rise, dschg := false, partnerDrives := false, hicHit := false, vconnOn := u.vconnSrc && raSeen u && !u.vconnBad && vconnInOk }) (haltChan (chanOfUsb port) s))
    else s)

/-- R265: VBUS has not returned above 4.40 V within 1.5 s of the Hard Reset: treated as a detach. -/
def execHardResetVbusTimeout (port : Fin 4) (s : State) : Host.Outcome State Fault Refusal :=
  let u := s.usb[port]
  .next (if u.tc = .attSnk && (u.seq = .hrSink || u.seq = .hrSinkLow) && decide (u.vbus.last ≤ 4400) then detach port s else s)

/-- R259: DSCHG off; what waited for vSafe0V goes on. -/
def execVbusDischargeDone (port : Fin 4) (s : State) : Host.Outcome State Fault Refusal :=
  let u := s.usb[port]
  let s1 := onUsb port (fun u => { u with dschg := false }) s
  .next (if !u.dschg then s
    else match u.seq with
      | .drain => toUnattached port (detachedOf s1 port) s1
      | .swapDown =>
        send port ctlPsRdy (onUsb port (fun u => { u with source := false, tc := .attSnk, path := .absent, seq := .swapSink }) s1)
      | .hrSource => onUsb port (fun u => { u with partnerDrives := false }) s1
      | _ => s1)

/-- Three over-voltages within 60 s (R253). -/
def minute : Nat := 6000000000
def recentOv (now : TB) (l : List TB) : List TB := l.filter fun t => decide (now.toNat < t.toNat + minute)

/-- V_high and V_low of the voltages a sink stands between: the contract's, one being moved to, and 5.00 V (R250, R253). -/
def vHigh (u : Usb) : Q := max (max u.contract.mv (if u.ask = .request then 0 else u.next.mv)) 5000
def vLow (u : Usb) : Q :=
  let now := if u.contract.kind = .none then 5000 else u.contract.mv
  if u.next.kind = .none || u.ask = .request then now else min now u.next.mv

/-- The withdrawal threshold of a USB sink (R250), mV. -/
def usbWd (u : Usb) : Q := max 3670 (3 / 4 * vLow u)

/-- R253: a VBUS above 1.15 × V_high + 0.50 V. -/
def execSinkOvervoltage (port : Fin 4) (peak : Q) (s : State) : Host.Outcome State Fault Refusal :=
  let u := s.usb[port]
  .next (if u.tc = .attSnk && !u.source && !u.ovStop && decide (115 / 100 * vHigh u + 500 < peak) then
      let times := s.tb :: recentOv s.tb u.ovTimes
      let s1 := assertStop .sinkOv (chanOfUsb port)
        (onUsb port (fun u => { u with ovStop := true, cOv := u.cOv.bump, ovTimes := times }) s)
      let s2 := usbSat port 7 u.cOv.hits (reportUnit 0x15 2 port.val 0 (rnd (peak / 10)) s1)
      let s3 := if anvilUp s then hardReset port true 2 s2 else s2
      if 3 ≤ times.length then
        let s4 := onUsb port (fun u => { u with held60 := true, ovTimes := [] }) s3
        if s4.usb[port].tc = .errorRecovery then s4 else errorRecovery port 0 s4
      else s3
    else s)

/-- R243: VCONN off, and the cable is one without an e-marker until detach. -/
def execVconnOvercurrent (port : Fin 4) (s : State) : Host.Outcome State Fault Refusal :=
  .next (if s.usb[port].vconnOn then
      pushEvent 0x0609 [byte port.val] (reportUnit 0x16 2 port.val 0 0
        (onUsb port (fun u => { u with vconnOn := false, vconnBad := true, cable := 1 }) s))
    else s)

/-! ### Withdrawal and hand-over of a USB sink, and of a source port (R54, R55, R248) -/

/-- A port's input current has been reversed for two periods (R54). -/
def reversedTwice (s : State) (c : Fin 16) : Bool := decide (2 ≤ s.chan[c].revCount)

/-- R54: an input below its withdrawal threshold (R149, R250), or a reversed current; the channel stops and its hand-over begins. -/
def execSourceWithdrawal (usb : Bool) (port : Fin 8) (v : Q) (s : State) : Host.Outcome State Fault Refusal :=
  let p := fin4 port.val
  .next (if usb then
      (if (s.usb[p].path = .ramping || s.usb[p].path = .delivering) &&
          (decide (v < usbWd s.usb[p]) || reversedTwice s (chanOfUsb p)) then lostWithdraw p s else s)
    else if srcWithdrawable s port && (decide (v < vWd s port) || reversedTwice s (chanOfSrc port)) then withdrawSrc port s else s)

/-- The reversal check of R54 at a ring boundary: the port behind the channel is withdrawn. -/
def reverseWithdraw (c : Fin 16) (s : State) : State :=
  if reversedTwice s c && feedsRide s c then
    (if c.val < 8 then (if srcWithdrawable s (fin8 c.val) then withdrawSrc (fin8 c.val) s else s)
     else
      let p := fin4 (c.val - 8)
      if s.usb[p].path = .ramping || s.usb[p].path = .delivering then lostWithdraw p s else s)
  else s

/-- The end of a USB port's hand-over: after a withdrawal or a detach attach detection begins (R57); a port still attached after a Hard
Reset or in a PR_Swap goes on, and ramps in on its contract (R251, R261). -/
def usbHandoverEnd (p : Fin 4) (s : State) : State :=
  let s1 := pushEvent 0x0203 [1, byte p.val]
    (onUsb p (fun u => { u with handover := false, path := .absent, ovStop := false }) (releaseStop .sinkOv (chanOfUsb p) s))
  let u := s1.usb[p]
  if u.redetect && attached u.tc then toUnattached p (detachedOf s1 p) s1
  else if u.seq = .swapStart && u.startDue then swapRise p s1
  else if u.tc = .attSnk && u.seq ≠ .swapSink then
    let s2 := onUsb p (fun u => { u with path := .qualifying, qualBad := false }) s1
    if mayRamp s2 p then sinkRamp p u.vbus.last s2 else s2
  else seeCc p (onUsb p (fun u => { u with redetect := false }) s1)

def execHandoverComplete (usb : Bool) (port : Fin 8) (present : Bool) (s : State) : Host.Outcome State Fault Refusal :=
  let p := fin4 port.val
  .next (if usb then (if s.usb[p].handover then usbHandoverEnd p s else s)
    else if s.src[port].handover then srcHandoverEnd port present s else s)

/-- R153, R248: the clamp and the reference have arrived. -/
def execRampingComplete (usb : Bool) (port : Fin 8) (s : State) : Host.Outcome State Fault Refusal :=
  let p := fin4 port.val
  .next (if usb then (if s.usb[p].path = .ramping && rampOver s (chanOfUsb p) then onUsb p (fun u => { u with path := .delivering }) s else s)
    else srcRampingComplete port s)

/-- R116: the Note-class fault; a USB source transition then leads to Hard Reset (R257). -/
def execTransitionTimerExpiry (ch : Fin 16) (s : State) : Host.Outcome State Fault Refusal :=
  let h := s.chan[ch]
  let p := fin4 (ch.val - 8)
  .next (if h.trans.running && !h.trans.suspended && switching s ch then
      let s1 := reportUnit 0x19 5 ch.val 0 0 (onChan ch (fun h => { h with trans := { h.trans with running := false } }) s)
      if isUsbSource s ch && (s.usb[p].seq = .moving || s.usb[p].seq = .rise || s.usb[p].seq = .swapUp) then hardReset p true 3 s1
      else s1
    else s)

/-- Q14's held entries of all ports go in time order, ties in port order, as credit returns (R329). -/
def earliestHeld (s : State) : Option (Fin 4) :=
  (List.finRange 4).foldl (fun b p =>
    match s.usb[p].held.head?, b with
    | none, _ => b
    | some _, none => some p
    | some x, some q => (match s.usb[q].held.head? with | some y => if x.1.toNat < y.1.toNat then some p else b | none => some p)) none

def releaseHeld : Nat → State → State
  | 0, s => s
  | n + 1, s =>
    if credit 14 s.ring[14] = 0 then s
    else match earliestHeld s with
      | none => s
      | some p =>
        match s.usb[p].held with
        | [] => s
        | e :: es => releaseHeld n (putRing 14 (place 14 e.2 s.ring[14]) (onUsb p (fun u => { u with held := es }) s))

def execHoldRelease (s : State) : Host.Outcome State Fault Refusal := .next (releaseHeld 16 s)

/-! ### Frames -/

/-- The sink clamp's correction factor, as R154 with the sink's current, in a frame in which it binds. -/
def usbK (u : Usb) : Q :=
  let lim := sinkLimit u
  max (80 / 100) (min (125 / 100) (u.kCorr + (if lim = 0 then 0 else (lim - u.i.mean) / lim) / 4))

/-- R259: DSCHG is on in every Unattached or Disabled state while VBUS is above 0.8 V; a port disabled on the wires is held off. -/
def dischargeIdle (u : Usb) : Usb :=
  match u.tc with
  | .disabled | .unattSnk | .unattSrc => { u with dschg := decide (800 < u.vbus.last) }
  | _ => u

/-- The measured quantities of the frame just ended: the port's power is the mean of its records' products, and the energy counter takes
its 256 µs (R267). -/
def usbMeasure (u : Usb) : Usb :=
  let w := u.pw.close
  { u with vbus := u.vbus.close, i := u.i.close, pw := w, energy := u.energy + w.mean * 1000 * 256 / 1000000 / 3600 }

/-- Check 3 of R151 on the samples of the frame that ends (R248). -/
def usbCheck (s : State) (p : Fin 4) (u : Usb) : Bool :=
  let fs := phaseFs s (chanOfUsb p) / 50
  u.i.min.elim false (fun m => decide (m < -fs)) || u.i.max.elim false (fun m => decide (fs < m))

/-- A sink after a Hard Reset waits for VBUS to fall and return (R265). -/
def hardSinkWait (u : Usb) : Usb :=
  if u.seq = .hrSink && u.vbus.last < 800 then { u with seq := .hrSinkLow }
  else if u.seq = .hrSinkLow && 4400 < u.vbus.last then { u with seq := .none } else u

/-- The clamp in the sink role holds at pSnkStdby between the Accept of another voltage and its PS_RDY (R249). -/
def sinkHeld (u : Usb) : Bool := u.next.kind ≠ .none && u.ask ≠ .request && u.next.mv ≠ u.contract.mv

/-- A sink's setpoints (R30, R248): its clamp, the slew of key 0x0214, and its ramp once it may begin. -/
def sinkSetpoints (p : Fin 4) (s : State) : State :=
  let u := s.usb[p]
  if mayRamp s p then sinkRamp p u.vbus.last s
  else if (u.path = .ramping || u.path = .delivering) && !sinkHeld u then
    setRate (chanOfUsb p) (sourceSlew s) (usbClamp p (sinkClampOf s p) s)
  else s

/-- A source's setpoints: its clamp written anew, and the channel stopped with VBUS driven down to 3.0 V (R30, R258, R259). -/
def sourceSetpoints (p : Fin 4) (s : State) : State :=
  let c := chanOfUsb p
  let u := s.usb[p]
  let low := u.seq = .drain || u.seq = .swapDown || u.seq = .hrSource
  if low && s.chan[c].enabled && s.chan[c].refTarget = 3000 && s.chan[c].refOut = 3000 then
    onUsb p (fun u => { u with dschg := true }) (haltChan c s)
  else srcClamp p (written s.chan[c]).neg s

/-- The control frame of the source engine on a USB port (R30, R248, R258, R259, R267). -/
def usbFrame (p : Fin 4) (s : State) : State :=
  if !usbActive s p then s
  else
    let c := chanOfUsb p
    let s0 := if feedsRide s c then idleKappa c s else s
    let binds := !s0.usb[p].source && (s0.usb[p].path = .ramping || s0.usb[p].path = .delivering) && clampBound s0 c
    let s1 := onUsb p (fun u0 =>
      let bad := u0.path = .qualifying && (u0.qualBad || usbCheck s0 p u0)
      let u := hardSinkWait (usbMeasure u0)
      { u with cls := fin8 (usbKey s0 0x620 p).toNat, qualBad := bad,
               kCorr := if binds then usbK u else u.kCorr, clampBinds := binds,
               ppsLimit := u.source && u.contract.kind = .pps && decide (s0.chan[c].uOut < s0.chan[c].u) }) s0
    if s1.usb[p].source then sourceSetpoints p s1 else curtailReport true (fin8 p.val) s1.chan[c].lim.order (sinkSetpoints p s1)

/-- A source transition has settled (R116). -/
def usbSettled (s : State) (p : Fin 4) : Bool :=
  let h := s.chan[chanOfUsb p]
  !h.trans.running && h.refOut = h.refTarget && switching s (chanOfUsb p)

/-- Settled transitions: PS_RDY and the contract, the end of a swap, or the first Source_Capabilities (R257, R261, R265). -/
def usbTransitions (p : Fin 4) (s : State) : State :=
  let u := s.usb[p]
  if !u.source || !usbSettled s p then s
  else match u.seq with
    | .moving => answerSlot p (putContract p u.next (send p ctlPsRdy (onUsb p (fun u => { u with seq := .none }) s)))
    | .rise => sourceReady p (onUsb p (fun u => { u with seq := .none }) s)
    | .swapUp =>
      sourceReady p (swapEvent p .pr u.swapOwn true (send p ctlPsRdy (onUsb p (fun u => { u with seq := .none }) s)))
    | _ => s

/-- The port's class is shed while it is a source: its channel is off, and Anvil has not yet answered (R51, R260). -/
def shedNow (s : State) (u : Usb) : Bool := u.shed || (u.source && u.tc = .attSrc && !u.barred && s.ride.shed.getLsbD u.cls.val)

/-- R260: a shed answered with Hard Reset and VBUS to vSafe0V; the source role is barred, but not in a swap whose Hard Reset returns the
port to the sink role (R269). -/
def answerShed (p : Fin 4) (s : State) : State :=
  let u := s.usb[p]
  let bars := !(inSwap u && !u.origSource)
  let s1 := onUsb p (fun u => { u with shed := false, barred := u.barred || bars, cShed := u.cShed.bump }) s
  let s2 := usbSat p 6 u.cShed.hits (if bars then pushEvent 0x060A [byte p.val, byte u.cls.val] s1 else s1)
  let s3 := hardReset p true 6 s2
  if s3.usb[p].source then drainVbus p .drain s3 else s3

/-- R260: a shed, a hiccup and a latch of the channel in the source role, and the restore of a class. -/
def usbStops (p : Fin 4) (s : State) : State :=
  let u := s.usb[p]
  if u.latched && attached u.tc then errorRecovery p 2 s
  else if u.latched && s.chan[chanOfUsb p].hic ≠ .latched then
    let s1 := onUsb p (fun u => { u with latched := false }) s
    seeCc p (onUsb p (fun u => { u with tc := if u.tc = .disabled then unattachedOf s1 p else u.tc }) s1)
  else if shedNow s u then answerShed p s
  else if u.hicHit && u.seq ≠ .hrSource then
    hardReset p true 7 (srcClamp p 0 (onUsb p (fun u => { u with hicHit := false }) s))
  else if u.barred && !s.ride.shed.getLsbD u.cls.val then
    let s1 := onUsb p (fun u => { u with barred := false }) s
    pushEvent 0x060B [byte p.val, byte u.cls.val]
      (seeCc p (onUsb p (fun u => { u with tc := if u.tc = .disabled || u.tc = .unattSnk then unattachedOf s1 p else u.tc }) s1))
  else s

/-- VCONN_Swap initiated once per attach where any EPR object is enabled and the port is not VCONN source (R256). -/
def usbVconn (p : Fin 4) (s : State) : State :=
  let u := s.usb[p]
  if u.tc = .attSrc && u.source && !u.vconnSrc && !u.vconnDone && u.seq = .none && u.ask = .none &&
     explicit u.contract.kind && swapOption s p 4 && (srcObject s p 4 || srcObject s p 5 || srcObject s p 6) then
    initiate p .vconnSwap (onUsb p (fun u => { u with vconnDone := true }) s)
  else s

/-- Anvil's policy frame on a USB port; a Disabled port whose cause is gone enters its Unattached state (R240). -/
def usbPolicy (p : Fin 4) (s : State) : State :=
  let s0 := if s.usb[p].tc = .disabled && unattachedOf s p ≠ .disabled then seeCc p (onUsb p (fun u => { u with tc := unattachedOf s p }) s) else s
  usbVconn p (usbStops p (usbTransitions p s0))

/-- The port is Disabled: engine failed, Device-stop or Port-stop (R32, R241, R492); as sink a hand-over runs, as source DSCHG. -/
def usbDisable (p : Fin 4) (s : State) : State :=
  let u := s.usb[p]
  let s1 := if !u.source && (u.path = .ramping || u.path = .delivering) then plannedWithdraw p s else s
  let s2 := toUnattached p .disabled s1
  onUsb p (fun x => { x with dschg := x.dschg || (u.source && attached u.tc) }) s2

end Sys2Proof.Machine
end

