-- ==== Sys2Proof/Machine/Loops.lean ====
section
/-! DEFINITION. The PWM ring's period boundary, the peak limit, hiccup and retry latch, and the phases' checks
(chapters 3 to 5). A boundary ends one period, applies what was written for the next, and runs the outer loop. -/

namespace Sys2Proof.Machine
open Sys2Proof

/-! ### Duties and conversion (R73, R75, R107, R552) -/

/-- D1 and D2 that the law of the mode calls for. -/
def duties (m : PwmMode) (vPort vRide : Q) : Q × Q :=
  match m with
  | .portLeg => (vRide / vPort, 0)
  | .fourSwitch =>
    let r := vRide / vPort
    let d1 := (172 / 100 : Q) * r / (1 + r)
    (d1, d1 - 72 / 100)
  | .rideLeg => (1, 1 - vPort / vRide)

def clamp (lo hi x : Q) : Q := max lo (min hi x)

/-- A duty held to 40 ns on and 60 ns off in a period of t seconds (R75). -/
def clampDuty (t d : Q) : Q := clamp (40 / 1000000000 / t) (1 - 60 / 1000000000 / t) d

/-- D1 and D2 applied in a period of t seconds: the law's, with a perturbation of the control value (R123), clamped on each
modulating leg. The bounds are judged on the switch whose on-fraction D1 or D2 is, HG1 and LG2 (log 115). -/
def applied (m : PwmMode) (vPort vRide t pert : Q) : Q × Q :=
  let (d1, d2) := duties m vPort vRide
  match m with
  | .portLeg => (clampDuty t (d1 + pert), 0)
  | .fourSwitch => (clampDuty t (d1 + pert), clampDuty t (d2 + pert))
  | .rideLeg => (1, clampDuty t (d2 + pert))

/-- The clamp of R75 acts: the flag of the channel's engine report. -/
def dutyClamped (m : PwmMode) (vPort vRide t pert : Q) : Bool :=
  let (d1, d2) := duties m vPort vRide
  match m with
  | .portLeg => clampDuty t (d1 + pert) ≠ d1 + pert
  | .fourSwitch => clampDuty t (d1 + pert) ≠ d1 + pert || clampDuty t (d2 + pert) ≠ d2 + pert
  | .rideLeg => clampDuty t (d2 + pert) ≠ d2 + pert

/-- Inductor current for one unit of u (table of R107), from D1 and D2. -/
def convOf (m : PwmMode) (d : Q × Q) (portSide : Bool) : Q :=
  match m, portSide with
  | .portLeg, false => 1
  | .portLeg, true => 1 / d.1
  | .fourSwitch, false => 1 / (1 - d.2)
  | .fourSwitch, true => 1 / d.1
  | .rideLeg, false => 1 / (1 - d.2)
  | .rideLeg, true => 1

/-- The same from the present voltages and period. -/
def convFactor (m : PwmMode) (vPort vRide t : Q) (portSide : Bool) : Q := convOf m (applied m vPort vRide t 0) portSide

/-- Length of a period of so many counts of 156.25 ps, s (R78). -/
def periodTime (p : Nat) : Q := (p : Q) / 6400000000

/-- One step of the mode machine, with its hysteresis (R73, R74). -/
def nextMode (m : PwmMode) (rho : Q) : PwmMode :=
  match m with
  | .portLeg => if rho < 110 / 100 then .fourSwitch else .portLeg
  | .fourSwitch => if 115 / 100 ≤ rho then .portLeg else if rho ≤ 87 / 100 then .rideLeg else .fourSwitch
  | .rideLeg => if 91 / 100 < rho then .fourSwitch else .rideLeg

def meanQ (l : List Q) : Q := if l.isEmpty then 0 else l.foldl (· + ·) 0 / l.length

/-! ### Edges: dead time, drive and plateau codes (R87 to R93) -/

/-- An edge whose leg modulates in a mode: SW1's but in Ride-leg, SW2's but in Port-leg. -/
def moves (m : PwmMode) (i : Fin 4) : Bool := if i.val < 2 then m ≠ .rideLeg else m ≠ .portLeg

/-- R92: ns from the turn-off of the conducting switch to the start of the complementary one: its partner's gate below 1.0 V, and
the node near its far rail or DT_MIN past the gate's fall, or DT_MAX. None where the gate has not fallen by DT_MAX (R93). -/
def deadTime (l : Lims) (e : EdgeSample) : Option Q :=
  match e.gateLow with
  | none => none
  | some g =>
    if l.dtMax < g then none
    else
      let free := match e.nodeAt with
        | some n => min n (g + l.dtMin)
        | none => g + l.dtMin
      some (min l.dtMax (max g free))

/-- The drive of the three parts of an edge: full, the plateau code, full (R87). -/
def edgeDrive (code : Byte) : Byte × Byte × Byte := (255, code, 255)

/-- A code after one more edge of its kind: successive approximation from 128 in the first 8 edges, then one step an edge, upwards
where the node was slower than programmed (R88). -/
def nextCode (n : Nat) (slope target : Q) (c : Byte) : Byte :=
  let d := if n < 7 then 2 ^ (6 - n) else 1
  if slope < target then byte (min 255 (c.toNat + d)) else if target < slope then byte (max 1 (c.toNat - d)) else c

/-- The 25 % test of R90 on a code at the end of its range. -/
def pinnedOff (c : Byte) (slope target : Q) : Bool := (c = 1 || c = 255) && decide (target / 4 < (slope - target).abs)

/-- One edge of a phase: its drive and dead time recorded, its code adapted. A flagged edge keeps its pinned code (R90), and an edge
in which the current reversed changes no code (R100). -/
def edgeStep (l : Lims) (i : Fin 4) (e : EdgeSample) (p : Phase) : Phase :=
  let n := if i.val < 2 then p.edges1 else p.edges2
  let goal := edgeTarget l.profiles i
  let code := if e.curRev || p.notReached.getLsbD i.val then p.codes[i] else nextCode n e.slope goal p.codes[i]
  let pin := if e.curRev then p.pinned[i] else if pinnedOff code e.slope goal then p.pinned[i] + 1 else 0
  let dead := deadTime l e
  let note (a : Acc) : Acc := match dead with
    | some t => a.add t
    | none => a
  { p with drive := upd p.drive i fun _ => edgeDrive p.codes[i], codes := upd p.codes i fun _ => code,
           pinned := upd p.pinned i fun _ => pin, skipped := putBit p.skipped i.val dead.isNone,
           dead1 := if i.val < 2 then note p.dead1 else p.dead1, dead2 := if i.val < 2 then p.dead2 else note p.dead2 }

/-- The edges of the period just ended, of the legs that modulate in a mode. -/
def phaseEdges (l : Lims) (m : PwmMode) (x : PhaseSample) (p : Phase) : Phase :=
  let q := (List.finRange 4).foldl (fun q i => match x.edges[i.val]? with
    | some e => if moves m i then edgeStep l i e q else q
    | none => q) { p with skipped := 0 }
  { q with edges1 := if moves m 0 then min 8 (p.edges1 + 1) else p.edges1,
           edges2 := if moves m 2 then min 8 (p.edges2 + 1) else p.edges2 }

/-- A gate fault of the period (R93): some complementary switch stayed off. -/
def gateFault (p : Phase) : Bool := p.skipped ≠ 0

/-- A leg that starts switching: its edges count from 0 and its codes start at 128, but for a flagged one (R88, R90). -/
def legStarts (first : Bool) (p : Phase) : Phase :=
  let code (i : Fin 4) : Byte := if p.notReached.getLsbD i.val then p.codes[i] else 128
  if first then { p with edges1 := 0, codes := upd (upd p.codes 0 fun _ => code 0) 1 fun _ => code 1,
                         pinned := upd (upd p.pinned 0 fun _ => 0) 1 fun _ => 0 }
  else { p with edges2 := 0, codes := upd (upd p.codes 2 fun _ => code 2) 3 fun _ => code 3,
                pinned := upd (upd p.pinned 2 fun _ => 0) 3 fun _ => 0 }

/-- The legs that begin to modulate with a mode: both at a start. -/
def modeStarts (old : Option PwmMode) (m : PwmMode) (p : Phase) : Phase :=
  let q := if moves m 0 && !(old.elim false fun o => moves o 0) then legStarts true p else p
  if moves m 2 && !(old.elim false fun o => moves o 2) then legStarts false q else q

/-! ### Conduction (R76, R77) -/

/-- The channels that block reverse inductor current: sources, USB sinks, and battery ports with the primary-pack flag (R76, R77,
R178). -/
def blocksReverse (s : State) (c : Fin 16) : Bool :=
  feedsRide s c || (decide (12 ≤ c.val) && primaryWire s (fin4 (c.val - 12)))

/-- The synchronous switch has turned off before the period's end: the sense would have fallen to +1 % of full scale. -/
def blockedIn (s : State) (c : Fin 16) (x : PhaseSample) : Bool := blocksReverse s c && decide (x.valley ≤ phaseFs s c / 100)

/-! ### Bootstrap supplies (R94, R95) -/

/-- Under-voltage of a leg's bootstrap: below 5.8 V, until 6.3 V is passed rising. -/
def bstFlag (was : Bool) (mv : Q) : Bool := if mv < 5800 then true else if 6300 ≤ mv then false else was

/-- The phase's two high-side switches are both supplied: an inhibited leg turns neither of its switches on (R94). -/
def supplied (p : Phase) : Bool := !p.bstPortUv && !p.bstRideUv

/-- The bootstrap supply of the switch held on in a mode, mV. -/
def heldBst (m : PwmMode) (x : PhaseSample) : Option Q :=
  match m with
  | .portLeg => some x.bst2
  | .rideLeg => some x.bst1
  | .fourSwitch => none

/-- The held switch's supply is below the refresh trigger of 6.8 V. -/
def refreshLow (m : PwmMode) (x : PhaseSample) : Bool := (heldBst m x).elim false fun v => decide (v < 6800)

/-! ### The phases' checks in the period just ended (R139, R93) -/

/-- Peak limit in the direction of a current. -/
def peakDir (s : State) (c : Fin 16) (i : Q) : Q := if 0 ≤ i then peakFwd s c else peakRev s c

/-- A count that one period leaves, advances or zeroes. -/
def checkCount (evaluated deviant : Bool) (n : Nat) : Nat := if evaluated then (if deviant then n + 1 else 0) else n

def reachDeviant (s : State) (c : Fin 16) (iRef mean : Q) : Bool :=
  decide (max (iRef.abs / 4) (peakDir s c iRef / 10) < (mean - iRef).abs)

def rippleDeviant (expected pp : Q) : Bool := decide (pp < expected / 4) || decide (4 * expected < pp)

/-- Peak-to-peak inductor current, mA, of a period of t seconds with D1 and D2: what the inductor gains while SW2 is low or loses
while SW1 is, the larger of the two, with the inductance in use in nH (R139; log 116). -/
def expectedRipple (vPort vRide t l : Q) (d : Q × Q) : Q :=
  if l = 0 then 0 else max (vRide * (1 - d.1)) (vPort * d.2) * t / l * 1000000000

/-- More than half of a ring's healthy phases. -/
def majority (n total : Nat) : Bool := decide (total < 2 * n)

/-- The sensed mean with the offset measured in qualification taken off (R151). -/
def sensed (p : Phase) (x : PhaseSample) : Q := x.mean - p.offset

/-- The checks of one period on one phase; iRef is the mean due per phase. -/
def phaseChecks (s : State) (c : Fin 16) (iRef expected : Q) (manyReach manyRipple : Bool) (x : PhaseSample) (p : Phase) : Phase :=
  let peak := peakDir s c iRef
  let on := supplied p
  let reachEval := on && !p.peakNow && !manyReach
  let ripEval := on && !p.peakNow && !blockedIn s c x && !manyRipple && decide (peak / 10 ≤ expected)
  { p with
    mean := sensed p x,
    reach := checkCount reachEval (reachDeviant s c iRef (sensed p x)) p.reach,
    ripple := checkCount ripEval (rippleDeviant expected x.pp) p.ripple,
    openIn := checkCount on x.beyond p.openIn,
    gate := checkCount on (gateFault p) p.gate,
    probation := if on && 1 < p.probation then p.probation - 1 else p.probation,
    peakNow := false, dcm := blockedIn s c x,
    bstPortUv := bstFlag p.bstPortUv x.bst1, bstRideUv := bstFlag p.bstRideUv x.bst2 }

/-- Inductor current due per healthy phase, positive towards the Ride, mA (R107). -/
def phaseRef (s : State) (c : Fin 16) (conv : Q) : Q :=
  if nHealthy s c = 0 then 0 else s.chan[c].uOut * conv * (if isUsbSource s c then -1 else 1) / nHealthy s c

/-- The sample of a phase, by its place in the gang. -/
def sampleOf (s : State) (c : Fin 16) (smp : PeriodSample) (k : Fin 28) : PhaseSample :=
  smp.phases.getD ((gangPhases s c).findIdx (· = k)) {}

/-- The edges and the counts of every healthy phase of the ring after a period. A phase whose own check is not evaluated counts
among the deviant ones of the exclusion by the majority (log 116). -/
def ringChecks (c : Fin 16) (smp : PeriodSample) (s : State) : State :=
  let h := s.chan[c]
  let healthy := healthyPhases s c
  let n := healthy.length
  let d := applied h.mode smp.vPort smp.vRide smp.t 0
  let iRef := phaseRef s c (convOf h.mode d (isUsbSource s c))
  let exp := expectedRipple smp.vPort smp.vRide smp.t h.plant.l d
  let at_ (k : Fin 28) : PhaseSample := sampleOf s c smp k
  let nReach := (healthy.filter fun k => reachDeviant s c iRef (sensed s.phase[k] (at_ k))).length
  let nRip := (healthy.filter fun k => rippleDeviant exp (at_ k).pp).length
  each healthy (fun k => onPhase k fun p =>
    phaseChecks s c iRef exp (majority nReach n) (2 ≤ n && majority nRip n) (at_ k) (phaseEdges h.lim h.mode (at_ k) p)) s

/-- The consecutive count of current-limited periods (R134), and the frame's own counts (R141, R189). -/
def limitCount (c : Fin 16) (s : State) : State :=
  let lim := (healthyPhases s c).any fun k => s.phase[k].peakNow
  onChan c (fun h => { h with limCount := if lim then h.limCount + 1 else 0, fPeak := h.fPeak || lim,
                              fPeriods := h.fPeriods + 1, periods := h.periods + 1 }) s

/-! ### Counts at their limits (R134, R139, R143, R144) -/

/-- The periods of a check: the listed number, 4 in probation. -/
def countLimit (p : Phase) (n : Nat) : Nat := if p.probation = 0 then n else min n 4

/-- The count of a cause of R492 has reached its limit. -/
def causeDue (p : Phase) (cause : Nat) : Bool :=
  match cause with
  | 0 => decide (countLimit p 64 ≤ p.reach)
  | 1 => decide (countLimit p 64 ≤ p.ripple)
  | 2 => decide (countLimit p 4 ≤ p.openIn)
  | 3 => decide (countLimit p 16 ≤ p.gate)
  | 4 => decide (countLimit p 16 ≤ p.delivery)
  | _ => decide (countLimit p 16 ≤ p.agreement)

/-- The lowest cause that is due. -/
def dueCause (p : Phase) : Option Nat := (List.range 6).find? (causeDue p)

/-- Every healthy phase of a ring whose count has reached its limit fails. -/
def failDue (c : Fin 16) (s : State) : State :=
  each (healthyPhases s c) (fun k s => match dueCause s.phase[k] with
    | some cause => failPhase k cause s
    | none => s) s

/-- A USB channel in the source role hiccups or latches: Anvil answers it (R260). -/
def usbHiccup (c : Fin 16) (s : State) : State :=
  if isUsbSource s c then
    onUsb (fin4 (c.val - 8)) (fun u => { u with hicHit := true, latched := u.latched || s.chan[c].hic = .latched }) s
  else s

/-- The count has reached N_HIC in Switching or Soft-start. -/
def hiccupDue (s : State) (c : Fin 16) : Bool :=
  (s.chan[c].hic = .switching || s.chan[c].hic = .softStart) && decide (s.chan[c].lim.nHic ≤ s.chan[c].limCount)

/-- What the counts call for: failed phases first, which zeroes the count of R134, then the hiccup (R144). -/
def overdue (c : Fin 16) (s : State) : State :=
  let s1 := failDue c s
  if hiccupDue s1 c then usbHiccup c (hiccup c s1) else s1

/-! ### What takes effect at the boundary -/

/-- Offsets O_i = round(i × P / N) of the ring's phases (R81). -/
def offsetsOf (p n : Nat) : List Nat := (List.range n).map fun i => (rnd ((i * p : Nat) / (n : Q))).toNat

/-- δ held for its periods, then drawn afresh from the ring's generator: a whole count within ±depth × P. A new fsw keeps the δ held,
against the new P (R84, R100; log 112). -/
def drawDither (c : Fin 16) (s : State) : State :=
  let h := s.chan[c]
  let p := periodOf s h.fsw
  let m := ((ditherDepth s c) * p).floor.toNat
  if h.ditherOff || m = 0 then onChan c (fun h => { h with delta := 0, period := p, deltaLeft := 0 }) s
  else if 0 < h.deltaLeft then
    onChan c (fun h => { h with deltaLeft := h.deltaLeft - 1, period := (p + rnd (h.delta * p)).toNat }) s
  else
    let g := Config.ditherStep (h.lfsr.getD (Config.ditherSeed c Config.dieId))
    let d : Int := ((Config.ditherPick g (2 * m + 1) % (2 * m + 1) : Nat) : Int) - m
    onChan c (fun h => { h with lfsr := some g, delta := (d : Q) / p, deltaLeft := (chanKey s 0x240 c).toNat - 1,
                                period := (p + d).toNat }) s

/-- The inner loop at a frequency and mode (R101). -/
def innerOf (fsw : Q) (m : PwmMode) (vPort vRide : Q) : Inner :=
  { fci := fsw / 4, zero := fsw / 20, pole := fsw / 2,
    ff := match m with
      | .portLeg => vPort
      | .rideLeg => vRide
      | .fourSwitch => max vPort vRide }

/-- The ring's current at the period's end reverses on a channel that feeds the Ride (R54, R76). -/
def reversedNow (s : State) (c : Fin 16) : Bool :=
  feedsRide s c && decide ((healthyPhases s c).foldl (fun a k => a + s.phase[k].mean) 0 < 0)

/-- Rest hold is asserted at this boundary: t0 of the relaxation capture, which keeps the samples of the last 64 µs (R194, R227). -/
def captureStart (c : Fin 16) (s : State) : State :=
  let h := s.chan[c]
  if 12 ≤ c.val && h.restDue && !h.restHold then
    let near (t : TB) : Bool := decide ((s.tb - t).toNat ≤ 6400)
    onBat (fin4 (c.val - 12)) (fun x => { x with
      restT0 := some s.tb, capV := x.capV.filter fun v => near v.1, capI := x.capI.filter fun i => near i.1 }) s
  else s

/-- The Ride below V_UN in a rest releases rest hold; that rest is disturbed (R194 step 5). -/
def restUnderVoltage (c : Fin 16) (s : State) : State :=
  if s.chan[c].restHold && s.ride.v < s.ride.th.vUN then disturbChan c s else s

/-- fsw written, mode stepped, bootstrap refresh counted, rest hold asserted, phases joined, clamps ramped (R73, R74, R80, R95, R135,
R143, R153, R194). The last four ratios outlast a stop: a start averages what it finds, and fewer than four at first (log 115). The
count of 8 periods runs on in Four-switch mode, so that a refresh is due at once after it (log 115). What an engine wrote while a
stop stands waits (R18). -/
def boundaryChanges (c : Fin 16) (smp : PeriodSample) (s : State) : State :=
  let s0 := captureStart c (each (waitingPhases s c) rejoinPhase s)
  let h := s0.chan[c]
  let hist := (smp.vPort / smp.vRide :: h.rhoHist).take 4
  let rho := meanQ hist
  let mode := if h.fresh then startMode rho else nextMode h.mode rho
  let changed := mode ≠ h.mode
  let low := (healthyPhases s0 c).any fun k => refreshLow mode (sampleOf s0 c smp k)
  let due := mode ≠ .fourSwitch && !changed && (7 ≤ h.refresh || low)
  let fsw := if unstopped h then h.fswPend.getD h.fsw else h.fsw
  let s1 := each (gangPhases s0 c) (fun k => onPhase k (modeStarts (if h.fresh then none else some h.mode) mode)) s0
  let s2 := drawDither c (onChan c (fun h => { h with
    rhoHist := hist, mode := mode, fsw := fsw, fswPend := if unstopped h then none else h.fswPend,
    refresh := if due then 0 else h.refresh + 1, counter := 0,
    inner := innerOf fsw mode smp.vPort smp.vRide,
    ramp := if h.rampTime = 0 then 1 else min 1 (h.ramp + smp.t * 1000 / h.rampTime),
    restHold := h.restHold || h.restDue, restDue := false, fBroken := h.fBroken || h.restHold || h.restDue,
    revCount := if reversedNow s0 c then h.revCount + 1 else 0 }) s1)
  onChan c (fun h => { h with offsets := offsetsOf h.period (nHealthy s2 c) }) s2

/-! ### The plan of a period: duties, edges, switches and refresh (R75, R78, R91, R95) -/

/-- Where an edge falls, in counts from the phase's start: HG1 and LG2 conduct from the start for D1 and D2 (log 115). -/
def edgePos (d : Q × Q) (p : Nat) (i : Fin 4) : Nat :=
  match i.val with
  | 1 => (rnd (d.1 * p)).toNat
  | 3 => (rnd (d.2 * p)).toNat
  | _ => 0

/-- The command of an edge, advanced by its leg's measured delay, within the period (R78, R91). -/
def edgeCmd (d : Q × Q) (p : Nat) (delay : Nat) (i : Fin 4) : Half :=
  BitVec.ofNat 16 (if p = 0 then 0 else (edgePos d p i + p - delay % p) % p)

/-- The switches on at the start of a period: those that conduct from it, but none of a leg without its bootstrap supply. -/
def startGates (m : PwmMode) (p : Phase) : List Gate :=
  (if p.bstPortUv then [] else [.hg1]) ++ (if p.bstRideUv then [] else [if m = .portLeg then .hg2 else .lg2])

/-- Where the refresh of a held switch is placed: at the start of the interval in which the other leg's low-side switch conducts; its
100 ns are 640 counts (R95; log 115). -/
def refreshPlace (m : PwmMode) (d : Q × Q) (p : Nat) : Half :=
  BitVec.ofNat 16 (if m = .portLeg then edgePos d p 1 else 0)

/-- Counts of a refresh of 100 ns. -/
def refreshLen : Nat := 640

/-- The switches in a refresh: the held one off, its leg's low side on, and the other leg's low side. The held switch comes back
only above the rising threshold (R95, R100). -/
def refreshGates (p : Phase) : List Gate := if p.refreshAt.isSome then [.lg1, .lg2] else p.gates

/-- One phase's plan. -/
def planPhase (h : Chan) (d : Q × Q) (due : Bool) (x : PhaseSample) (p : Phase) : Phase :=
  let delay (i : Nat) : Nat := (x.edges.getD i { slope := 0 }).delay
  if p.populated && p.healthy then
    { p with d1 := d.1, d2 := d.2,
             cmds := ⟨#[edgeCmd d h.period (delay 0) 0, edgeCmd d h.period (delay 1) 1, edgeCmd d h.period (delay 2) 2,
                        edgeCmd d h.period (delay 3) 3], rfl⟩,
             gates := startGates h.mode p,
             refreshAt := if due then some (refreshPlace h.mode d h.period) else none }
  else p

/-- The duties of the period that begins, with the perturbation in force, on every phase of the ring. -/
def planPeriod (c : Fin 16) (smp : PeriodSample) (s : State) : State :=
  let h := s.chan[c]
  let t := periodTime h.period
  let d := applied h.mode smp.vPort smp.vRide t h.ann.pert
  let due := h.refresh = 0 && h.mode ≠ .fourSwitch
  onChan c (fun h => { h with dutyClamp := dutyClamped h.mode smp.vPort smp.vRide t h.ann.pert })
    (each (gangPhases s c) (fun k => onPhase k (planPhase h d due (sampleOf s c smp k))) s)

/-! ### The outer loop (R103 to R110) -/

/-- The characteristic's voltage for a filtered current (R104), with the limits scaled (R142). -/
def vStar (s : State) (c : Fin 16) (iF : Q) : Q :=
  let t := s.ride.th
  let iDis := s.chan[c].lim.pos * phaseScale s c
  let iChg := s.chan[c].lim.neg * phaseScale s c
  if 0 ≤ iF then t.vT - (if iDis = 0 then 0 else (t.vT - t.vFL) * iF / iDis)
  else t.vT + (if iChg = 0 then 0 else t.span * (-iF) / iChg)

/-- The error of the table "Outer-loop quantities", mV. -/
def loopError (s : State) (c : Fin 16) (smp : PeriodSample) (r iF : Q) : Q :=
  if 12 ≤ c.val then vStar s c iF - smp.vRide
  else if isUsbSource s c then r - smp.vPort
  else smp.vPort - r

/-- κ of a source or USB sink channel at the Ride voltage, by the order last written (R46, R148); 1 for the others. -/
def kappaOf (s : State) (c : Fin 16) (v : Q) : Q := if feedsRide s c then kappaAt s s.chan[c].lim.order v else 1

/-- The written limits in force towards positive and negative output: scaled for lost phases and ramped (R17 step 2, R135, R142). -/
def limitsNow (s : State) (c : Fin 16) : Q × Q :=
  let h := s.chan[c]
  let f := phaseScale s c * h.ramp
  (h.lim.pos * f, h.lim.neg * f)

/-- The clamps of R17 steps 2 to 4 on u: the written limits, scaled, ramped and curtailed; the phases' peak limit; the
directions that stops, rest hold and the delivery stop of R49 inhibit. -/
def clampBounds (s : State) (c : Fin 16) (smp : PeriodSample) (kappa : Q) : Q × Q :=
  let h := s.chan[c]
  let (pos, neg) := limitsNow s c
  let usbSrc := isUsbSource s c
  let k := convFactor h.mode smp.vPort smp.vRide smp.t usbSrc
  let n : Q := nHealthy s c
  let pk (i : Q) : Q := if k = 0 then 0 else i * n / k
  let noTo := toRideStopped h || h.restHold || s.ride.ovStop
  let noFrom := fromRideStopped h || h.restHold
  if usbSrc then (0, if noFrom then 0 else min neg (pk (peakRev s c)))
  else
    let hi := if noTo then 0 else min (kappa * pos) (pk (peakFwd s c))
    let lo := if c.val < 12 || noFrom then 0 else max (-neg) (-(pk (peakRev s c)))
    (lo, hi)

/-- The written charge clamp bounds a battery channel's output (R189); on the other channels, any clamp. -/
def boundNow (s : State) (c : Fin 16) (u out : Q) : Bool :=
  if 12 ≤ c.val then decide (u < out) && decide (out = -(limitsNow s c).2) && !fromRideStopped s.chan[c] && !s.chan[c].restHold
  else decide (out ≠ u)

/-- One period of R106 with R108 to R110: coefficients committed take effect first, with I adjusted so that u is
continuous; a stop loads the integrator and the filter with the zeroed output. -/
def compensate (c : Fin 16) (smp : PeriodSample) (s : State) : State :=
  let h := s.chan[c]
  let kappa := kappaOf s c smp.vRide
  let r0 := if h.fresh && c.val < 12 then smp.vPort else h.refOut
  let r := slewed r0 h.refTarget h.refRate smp.t
  let fcF := Config.twoPi * h.plant.fc / 20
  let iF := if 12 ≤ c.val then h.iFilt + Config.lag (fcF * smp.t) * (smp.iRide - h.iFilt) else h.iFilt
  let e := loopError s c smp r iF
  let ePrev := if h.fresh then e else h.ePrev
  let pend := if unstopped h then h.coefPend else none
  let co := pend.getD h.coef
  let p := co.kp * e
  let d := if smp.t = 0 then 0 else co.kd * (e - ePrev) / smp.t
  let i0 := if pend.isSome && !h.fresh then h.u - p - d else h.integ
  let held := (decide (h.uOut < h.u) && decide (0 < e)) || (decide (h.u < h.uOut) && decide (e < 0)) || h.restHold
  let i1 := if held then i0 else i0 + co.ki * e * smp.t
  let x := p + i1 + d
  let u := h.u + Config.lag (co.wp * smp.t) * (x - h.u)
  let (lo, hi) := clampBounds s c smp kappa
  let out := clamp lo hi u
  let zeroed := bothStopped h || (toRideStopped h && decide (0 < u)) || (fromRideStopped h && decide (u < 0))
  onChan c (fun h => { h with
    coef := co, coefPend := if unstopped h then none else h.coefPend, refOut := r, kappa := kappa, iFilt := iF, ePrev := e,
    fresh := false,
    integ := if zeroed then out - p - d else i1, u := if zeroed then out else u, uOut := out,
    fBound := if boundNow s c u out then h.fBound + 1 else h.fBound,
    ann := if h.ann.state = .applying && pend.isSome then
        { h.ann with state := .verifying, stateTb := s.tb, verPp := 0, winT := 0, winLo := none, winHi := none }
      else h.ann }) s

/-- Each healthy phase's share of the reference (R107). -/
def shareRef (c : Fin 16) (smp : PeriodSample) (s : State) : State :=
  let h := s.chan[c]
  let i := phaseRef s c (convFactor h.mode smp.vPort smp.vRide smp.t (isUsbSource s c))
  each (healthyPhases s c) (fun k => onPhase k fun p => { p with iRef := i }) s

/-- R108: while a stop in both directions zeroes the output of a channel that has run, its integrator and filter follow, so that
the loop goes on from u_out = 0 at the release. -/
def trackZero (c : Fin 16) (smp : PeriodSample) (s : State) : State :=
  let h := s.chan[c]
  let e := loopError s c smp h.refOut h.iFilt
  onChan c (fun h => { h with fBroken := true, u := 0, uOut := 0, ePrev := e, integ := -(h.coef.kp * e) }) s

/-- R116: settled after 16 consecutive periods within the larger of 1 % and 50 mV, from the period the limiter arrives. -/
def settle (c : Fin 16) (smp : PeriodSample) (s : State) : State :=
  let h := s.chan[c]
  if h.trans.running && !h.trans.suspended && h.refOut = h.refTarget && c.val < 12 then
    let ok := decide ((smp.vPort - h.refTarget).abs ≤ max (h.refTarget / 100) 50)
    let n := if ok then h.trans.settled + 1 else 0
    onChan c (fun h => { h with trans := { h.trans with settled := n, running := n < 16 } }) s
  else s

/-! ### Annealing at the boundary (R122 to R124, R127) -/

/-- The generator of x¹⁰ + x⁷ + 1, shifted by one chip (R123). -/
def prbsNext (g : BitVec 10) : BitVec 10 := (g <<< 1) ||| BitVec.ofNat 10 (b2n (g.getLsbD 9 ^^ g.getLsbD 6))

/-- Chips of an injection: 200 ms rounded down to whole sequences of 1023 (R123). -/
def chipsTotal (fsw : Q) : Nat := 1023 * (fsw / 5 / 1023).floor.toNat

/-- Perturbation off and dither restored: the fit begins (table "Annealing states"). -/
def endInjection (c : Fin 16) (s : State) : State :=
  onChan c (fun h => { h with ditherOff := false, ann := { h.ann with state := .fitting, pert := 0, stateTb := s.tb } }) s

/-- One chip of +a or −a of full duty in each ring period of an injection; the whole sequences done, it ends (R123). -/
def annChip (c : Fin 16) (s : State) : State :=
  let h := s.chan[c]
  if h.ann.state = .injecting then
    if chipsTotal h.fsw ≤ h.ann.chips then endInjection c s
    else
      let a := h.ann.amp / 100
      onChan c (fun h => { h with ann := { h.ann with
        pert := if h.ann.lfsr.getLsbD 9 then a else -a, lfsr := prbsNext h.ann.lfsr, chips := h.ann.chips + 1 } }) s
  else s

/-- The windows of 1 ms over which u's peak-to-peak is recorded in preparation and verification, and the node's voltage of the
frame (R124, R127; log 16). -/
def recordPp (c : Fin 16) (smp : PeriodSample) (s : State) : State :=
  let h := s.chan[c]
  if annRunning h.ann.state then
    let prep := h.ann.state = .preparing
    let ver := h.ann.state = .verifying
    let lo := min (h.ann.winLo.getD h.u) h.u
    let hi := max (h.ann.winHi.getD h.u) h.u
    let t := h.ann.winT + smp.t
    let full := decide (1 / 1000 ≤ t) || !(prep || ver)
    onChan c (fun h => { h with ann := { h.ann with
      node := h.ann.node.add (if 12 ≤ c.val then smp.vRide else smp.vPort),
      prepPp := if full && prep then max h.ann.prepPp (hi - lo) else h.ann.prepPp,
      verPp := if full && ver then max h.ann.verPp (hi - lo) else h.ann.verPp,
      winT := if full then 0 else t, winLo := if full then none else some lo, winHi := if full then none else some hi } }) s
  else s

/-- The Ride lies in Canopy or Understory. -/
def canopyOrUnderstory (s : State) : Bool := decide (s.ride.th.vFL ≤ s.ride.v) && decide (s.ride.v < s.ride.th.vEM)

/-- The conditions of R122 that a ring period shows: no clamp of R17 binds, no reverse blocking on a source or USB sink, the Ride in
Canopy or Understory. A run in preparation or injection is abandoned where one fails; the Ride's alone ends one that applies or
verifies (R124, R129). -/
def annConditions (c : Fin 16) (s : State) : State :=
  let h := s.chan[c]
  let ride := canopyOrUnderstory s
  let bound := h.uOut ≠ h.u || (feedsRide s c && (healthyPhases s c).any fun k => s.phase[k].dcm)
  let early := h.ann.state = .preparing || h.ann.state = .injecting
  if !ride || (bound && early) then annAbandon c s else if bound then annBreak c s else s

/-! ### The Ride sense -/

/-- The Ride as the Ride sense shows it in this period (R37), and Taproot's gate on again when the drop reappears at TAP_BAT's own
sense (R64; log 17); a fall into Floor ends standby (R525). -/
def senseRide (v : Q) (tapBat : Option Q) (s : State) : State :=
  let s := regulate v (if v < s.ride.th.vFL then wantRunning 3 s else s)
  { s with
    ride := { s.ride with v := v, vMin := some (min (s.ride.vMin.getD v) v),
                          meas := { s.ride.meas with sum := s.ride.meas.sum + v, n := s.ride.meas.n + 1, last := v } },
    tap := match tapBat with
      | some b => { s.tap with vBat := b, blocking := s.tap.blocking && !decide (v < b) }
      | none => s.tap }

/-- What the period just ended leaves: the counts, edges and checks; at a start there is none. -/
def periodEnd (c : Fin 16) (smp : PeriodSample) (s : State) : State :=
  if s.chan[c].fresh then s else ringChecks c smp (limitCount c s)

/-- The whole boundary of a ring that switches. -/
def ringPeriod (c : Fin 16) (smp : PeriodSample) (s : State) : State :=
  let s1 := annChip c (boundaryChanges c smp (periodEnd c smp s))
  let s2 := shareRef c smp (compensate c smp (planPeriod c smp s1))
  annConditions c (recordPp c smp (settle c smp s2))

/-- Counts that reached their limits act first; the ring then runs on if it still switches; a port whose current has been reversed for
two periods is withdrawn (R54). -/
def ringBoundary (c : Fin 16) (smp : PeriodSample) (s : State) : State :=
  let s1 := overdue c s
  if switching s1 c then reverseWithdraw c (ringPeriod c smp s1) else s1

/-- A channel that only a stop keeps from switching, or the Ride's over-voltage, and whose loop has run. -/
def tracksZero (s : State) (c : Fin 16) : Bool :=
  let h := s.chan[c]
  h.enabled && !h.offByCmd && !h.fresh && (h.hic = .switching || h.hic = .softStart) &&
  (bothStopped h || (s.ride.ovStop && feedsRide s c))

/-- A channel off by command: Off without a timer or a retry; its owner's wish to switch is kept (R430). -/
def offNow (h : Chan) : Chan :=
  { h with offByCmd := true, offDue := false, waits := false, hic := if h.hic = .latched then .latched else .off, u := 0, uOut := 0,
           integ := 0, fresh := true, limCount := 0, ramp := 0, restHold := false, restDue := false, fBroken := true,
           trans := { h.trans with suspended := true } }

/-- A whole gang off, at its ring's boundary; a USB channel in the source role is treated as under a hiccup (R260). -/
def takeOff (c : Fin 16) (s : State) : State :=
  usbHiccup c (each (chanGang s c) (fun d => onChan d offNow) (annAbandon c s))

/-- R106: the boundary of the ring of a channel or gang; a gang's ring is its lowest channel's. An off command that waits for it
takes effect first (R430). -/
def execRingPeriodBoundary (ch : Fin 16) (sample : PeriodSample) (s : State) : Host.Outcome State Fault Refusal :=
  let s1 := restUnderVoltage ch (whenS s.clk.vcc (senseRide sample.vRide sample.tapBat) s)
  .next (if chanLow s1 ch = ch && s1.chan[ch].offDue then takeOff ch s1
    else if chanLow s1 ch = ch && switching s1 ch then ringBoundary ch sample s1
    else if chanLow s1 ch = ch && tracksZero s1 ch then trackZero ch sample s1
    else onChan ch (fun h => { h with fBroken := true }) s1)

/-! ### Peak limit, hiccup and latch -/

/-- The flow of a channel is from port to Ride (R9). -/
def flowsToRide (s : State) (c : Fin 16) : Bool := !isUsbSource s c && decide (0 ≤ s.chan[c].uOut)

/-- The de-energising switch state: the energising interval of the table "Energising interval" is over. -/
def deEnergised (m : PwmMode) (toRide : Bool) : List Gate :=
  match m, toRide with
  | .portLeg, true => [.lg1, .hg2]
  | .fourSwitch, true => [.lg1, .hg2]
  | .rideLeg, true => [.hg1, .hg2]
  | .portLeg, false => [.hg1, .hg2]
  | .fourSwitch, false => [.hg1, .lg2]
  | .rideLeg, false => [.hg1, .lg2]

/-- A position lies within the blanking time after an edge of a moving leg (R99). -/
def inBlanking (h : Chan) (p : Phase) (pos : Nat) : Bool :=
  (List.finRange 4).any fun i =>
    moves h.mode i &&
    (let e := edgePos (p.d1, p.d2) h.period i
     decide (e ≤ pos) && decide (((pos - e : Nat) : Q) * 15625 / 100000 < h.lim.blank))

/-- R130, R131: the sensed current crosses the limit at a position of the period. Within the blanking time the comparator holds its
last value: it acts at the end of it if the current is still beyond. Acting, it ends the energising interval, and the phase completes
the period in its de-energising state; a refresh in the period completes (R144). -/
def execPeakLimit (phase : Fin 28) (at_ : Half) (still : Bool) (s : State) : Host.Outcome State Fault Refusal :=
  let c := chanLow s (chanOfPhase phase)
  let h := s.chan[c]
  .next (if switching s c && s.phase[phase].populated && s.phase[phase].healthy && supplied s.phase[phase] then
      let s1 := onChan c (fun h => { h with counter := at_ }) s
      if inBlanking h s.phase[phase] at_.toNat && !still then s1
      else annLimit c (onPhase phase (fun p => { p with peakNow := true, gates := deEnergised h.mode (flowsToRide s c) }) s1)
    else s)

/-- R134, R135: the count has reached N_HIC; a phase whose own count is due fails first, and no hiccup follows (R144). -/
def execHiccup (ch : Fin 16) (s : State) : Host.Outcome State Fault Refusal :=
  .next (if hiccupDue s ch && chanLow s ch = ch then overdue ch s else s)

/-- T_HIC has elapsed: Soft-start, or its wait for the last stop (R135); the loop and limiter start afresh (R109, R117). -/
def execHiccupOffTimeEnd (ch : Fin 16) (measured : Q) (s : State) : Host.Outcome State Fault Refusal :=
  .next (if s.chan[ch].hic = .off && !s.chan[ch].offByCmd && chanLow s ch = ch then softStart ch measured s else s)

def execSoftStartComplete (ch : Fin 16) (s : State) : Host.Outcome State Fault Refusal :=
  .next (if s.chan[ch].hic = .softStart then onChan ch (fun h => { h with hic := .switching, ramp := 1 }) s else s)

/-- R136. -/
def execRetryResetInterval (ch : Fin 16) (s : State) : Host.Outcome State Fault Refusal :=
  .next (if s.chan[ch].hic = .switching then onChan ch (fun h => { h with retry := 0 }) s else s)

/-! ### Phase failure and probation -/

/-- R140: a plausibility count has reached its limit. -/
def execPhaseFailure (phase : Fin 28) (cause : BitVec 3) (s : State) : Host.Outcome State Fault Refusal :=
  let p := s.phase[phase]
  .next (if p.populated && p.healthy && cause.toNat ≤ 5 && causeDue p cause.toNat then failPhase phase cause.toNat s else s)

/-- R90: a pinned code has missed its slope by more than 25 % for 256 edges in a row: the flag of the edge, a Note-class fault. -/
def execProfileNotReached (phase : Fin 28) (edge : Fin 4) (s : State) : Host.Outcome State Fault Refusal :=
  let p := s.phase[phase]
  .next (if p.notReached.getLsbD edge.val || decide (p.pinned[edge] < 256) then s
    else reportUnit 0x18 6 phase.val edge.val 0
      (onPhase phase (fun p => { p with notReached := putBit p.notReached edge.val true }) s))

/-! ### Driver supplies (R94) -/

/-- VDRV below 7.4 V holds every gate off: runs of Annealing are abandoned, transition timers suspended (R100, R117, R124). -/
def execVdrvUndervoltage (lowest : Q) (s : State) : Host.Outcome State Fault Refusal :=
  .next (if s.clk.vdrvOk then
      let s1 := { s with clk := { s.clk with vdrvOk := false, vdrvLow := true } }
      let off (c : Fin 16) (s : State) : State :=
        annDiscard c (onChan c (fun h => { h with fBroken := true, trans := { h.trans with suspended := true } }) s)
      reportUnit 0x17 0 0 0 (rnd (lowest / 10)) (each (List.finRange 16) off s1)
    else s)

/-- After 1 ms above the rising threshold switching resumes; the loops continue from their outputs, the limiters from the measured
voltages (R94, R108, R117). In Device-stop the driver domain stays off (R498). -/
def execVdrvRecovery (s : State) : Host.Outcome State Fault Refusal :=
  .next (if s.dev = .deviceStop || s.clk.vdrvOk then { s with clk := { s.clk with vdrvLow := false } }
    else
      let s1 := { s with clk := { s.clk with vdrvOk := true, vdrvLow := false } }
      each ((List.finRange 16).filter fun c => chanLow s1 c = c && switching s1 c) (fun c => placeRef c (portVolt s c)) s1)

/-- A bootstrap supply below 5.8 V inhibits its high-side and its leg's low-side switch (R94): the leg's switches turn off, but a
refresh of it continues (R100). -/
def execBootstrapUndervoltage (phase : Fin 28) (rideLeg : Bool) (s : State) : Host.Outcome State Fault Refusal :=
  .next (onPhase phase (fun p =>
    let g := p.gates.filter fun x => if rideLeg then x ≠ .hg2 && x ≠ .lg2 else x ≠ .hg1 && x ≠ .lg1
    if rideLeg then { p with bstRideUv := true, gates := g } else { p with bstPortUv := true, gates := g }) s)

end Sys2Proof.Machine
end

