-- ==== Sys2Proof/Machine/Annealing.lean ====
section
/-! DEFINITION. Annealing: grant, injection, fit, verification and what each control frame watches (R121 to R129). -/

namespace Sys2Proof.Machine
open Sys2Proof

/-- A hand-over is in progress on some port. -/
def anyHandover (s : State) : Bool := vany s.src (·.handover) || vany s.usb (·.handover)

/-- Another channel whose run bars this one: another battery channel, or the other channel of the same source engine. -/
def annConcurrent (s : State) (c : Fin 16) : Bool :=
  (List.finRange 16).any fun d =>
    d ≠ c && chanLow s d = d && annRunning s.chan[d].ann.state &&
    (if 12 ≤ c.val then decide (12 ≤ d.val) else engineOf s d = engineOf s c)

/-- The conditions of R122 that stand in the state, but the concurrency conditions. Source and USB runs go on through another
port's hand-over once granted (R129). -/
def annMayRun (s : State) (c : Fin 16) : Bool :=
  switching s c && canopyOrUnderstory s && (c.val < 12 || !anyHandover s) &&
  !(8 ≤ c.val && c.val < 12 &&
    (s.usb[fin4 (c.val - 8)].contract.kind = .none || s.usb[fin4 (c.val - 8)].contract.kind = .implicit ||
     s.usb[fin4 (c.val - 8)].seq ≠ .none))

/-- The node a channel regulates: the Ride for a battery channel, else its port (R103). -/
def nodeVolt (s : State) (c : Fin 16) : Q := if 12 ≤ c.val then s.ride.v else portVolt s c

/-- TB counts of a time in ms. -/
def msCounts (ms : Nat) : Nat := 100000 * ms

/-- TB counts since a moment. -/
def since (s : State) (t : TB) : Nat := (s.tb - t).toNat

/-- A waiting channel that could run now: every condition of R122 has held for 100 ms. -/
def annReady (s : State) (c : Fin 16) : Bool :=
  s.chan[c].ann.state = .waiting && chanLow s c = c && annMayRun s c && !anyHandover s && !annConcurrent s c &&
  !s.chan[c].restHold && !s.chan[c].restDue && decide (msCounts 100 ≤ since s s.chan[c].ann.breakTb)

/-- The order of grants: trigger time, then channel number. -/
def annBefore (s : State) (d c : Fin 16) : Bool :=
  decide (s.chan[d].ann.trigTb < s.chan[c].ann.trigTb) || (s.chan[d].ann.trigTb = s.chan[c].ann.trigTb && decide (d < c))

/-- R122: no ready channel stands before this one. -/
def annTurn (s : State) (c : Fin 16) : Bool := annReady s c && (List.finRange 16).all fun d => !(annReady s d && annBefore s d c)

/-- The turn is granted: Preparing begins with dither off (R123). -/
def execAnnealingGrant (ch : Fin 16) (s : State) : Host.Outcome State Fault Refusal :=
  .next (if annTurn s ch then
      onChan ch (fun h => { h with ditherOff := true, ann := { h.ann with
        state := .preparing, retried := false, stateTb := s.tb, prepPp := 0, winT := 0, winLo := none, winHi := none,
        node := {}, node0 := none } }) s
    else s)

/-- The conditions have not held within 60 s of the trigger: the event, and again every 60 s (R122). -/
def execAnnealingDeferred (ch : Fin 16) (s : State) : Host.Outcome State Fault Refusal :=
  .next (if s.chan[ch].ann.state = .waiting && decide (msCounts 60000 ≤ since s s.chan[ch].ann.deferTb) then
      pushEvent 0x0211 [byte ch.val, trigCode s.chan[ch].ann.trigger]
        (onChan ch (fun h => { h with ann := { h.ann with deferTb := s.tb } }) s)
    else s)

/-- The seed of a channel's generator; the all-zero state is none of the sequence. -/
def prbsStart (c : Fin 16) : BitVec 10 := if Config.prbsSeed c = 0 then 1 else Config.prbsSeed c

/-- 10 ms of preparation are over: the sequence starts from its seed at the next ring boundary (R123). -/
def startInjection (c : Fin 16) (s : State) : State :=
  onChan c (fun h => { h with ann := { h.ann with state := .injecting, stateTb := s.tb, chips := 0, lfsr := prbsStart c } }) s

def execAnnealingInjectionStart (ch : Fin 16) (s : State) : Host.Outcome State Fault Refusal :=
  .next (if s.chan[ch].ann.state = .preparing && decide (msCounts 10 ≤ since s s.chan[ch].ann.stateTb) then startInjection ch s else s)

/-- The last whole sequence of R123 is complete. -/
def execAnnealingInjectionEnd (ch : Fin 16) (s : State) : Host.Outcome State Fault Refusal :=
  .next (if s.chan[ch].ann.state = .injecting && decide (chipsTotal s.chan[ch].fsw ≤ s.chan[ch].ann.chips) then endInjection ch s
    else s)

/-- The ranges of R125: 0.2 µH to 2 mH, 5 µF to 200 mF, 0.05 mΩ to 2 Ω. -/
def plantInRange (m : Plant) : Bool :=
  200 ≤ m.l && m.l ≤ 2000000 && 50 ≤ m.c && m.c ≤ 2000000 && 50 ≤ m.esr && m.esr ≤ 2000000

/-- The model fitted to the responses between f_c / 10 and fsw / 3, and its residual in hundredths (R125). -/
def fitOf (s : State) (c : Fin 16) (rs : List Response) : Plant × Q :=
  let (l, rl, cap, esr, g, res) := Config.fitPlant rs (s.chan[c].plant.fc / 10) (s.chan[c].fsw / 3)
  ({ l := l, rl := rl, c := cap, esr := esr, g := g, fc := 0, pm := 0, gm := 0 }, res)

/-- R125: the residual is at most 15 %, and L, C and ESR lie in their ranges. -/
def fitOk (f : Plant × Q) : Bool := decide (f.2 ≤ 15) && plantInRange f.1

/-- R125, R126: the new set is committed for the next ring boundary; a first failed fit is retried, a second ends the run, and
so does a fitted model for which the recipe finds no set. -/
def execAnnealingFitComplete (ch : Fin 16) (responses : List Response) (s : State) : Host.Outcome State Fault Refusal :=
  let h := s.chan[ch]
  let f := fitOf s ch responses
  .next (if h.ann.state = .fitting then
      if !fitOk f then
        if h.ann.retried then annFail ch 0 s else onChan ch (fun h => { h with ann := { h.ann with retried := true } }) s
      else if (recipeFor s ch f.1 false).isNone then annFail ch 0 s
      else
        let k := coefFor s ch f.1 false
        putSet ch k 2 (onChan ch (fun h => { h with ann := { h.ann with
          state := .applying, prev := some (h.coefPend.getD h.coef, h.plant), prevOrigin := h.origin, cand := some k.2 } }) s)
    else s)

/-- The identified C differs from the nominal by more than a factor of 3 (R128). -/
def nominalMismatch (s : State) (c : Fin 16) (m : Plant) : Bool :=
  let n := (nominalPlant s c).c
  decide (3 * n < m.c) || decide (3 * m.c < n)

/-- The result event of R128 (R404, code 0x0210). -/
def annResult (c : Fin 16) (m : Plant) (s : State) : State :=
  pushEvent 0x0210 ([byte c.val, trigCode s.chan[c].ann.trigger, byte (b2n (nominalMismatch s c m)), 0] ++
    quantU 4 m.l ++ quantU 4 m.rl ++ quantU 4 m.esr ++ quantU 4 m.c ++ quant 4 m.g ++ quantU 4 m.fc ++
    quantU 2 m.pm ++ quantU 2 m.gm) s

/-- The channel's present limit in its direction of flow, mA (R127). -/
def flowLimit (s : State) (c : Fin 16) : Q := if flowsToRide s c then (limitsNow s c).1 else (limitsNow s c).2

/-- The end of a verification: u's peak-to-peak in no 1 ms window above the larger of three times that in preparation and 5 % of the
limit (R127). -/
def endVerify (c : Fin 16) (s : State) : State :=
  let h := s.chan[c]
  if max (3 * h.ann.prepPp) (5 / 100 * flowLimit s c) < h.ann.verPp then annFail c 1 s
  else
    let m := h.ann.cand.getD (nominalPlant s c)
    annResult c m (onChan c (fun h => { h with ann := { h.ann with
      state := .idle, model := some m, cand := none, prev := none, done := s.tb } }) s)

def execAnnealingVerificationEnd (ch : Fin 16) (s : State) : Host.Outcome State Fault Refusal :=
  .next (if s.chan[ch].ann.state = .verifying && decide (msCounts 50 ≤ since s s.chan[ch].ann.stateTb) then endVerify ch s else s)

/-- Times of the table "Annealing states" that a frame later than their own finds over (log 13). -/
def annTimes (c : Fin 16) (s : State) : State :=
  let h := s.chan[c]
  let t := since s h.ann.stateTb
  if h.ann.state = .preparing && decide (msCounts 10 + 25600 ≤ t) then startInjection c s
  else if h.ann.state = .verifying && decide (msCounts 50 + 25600 ≤ t) then endVerify c s
  else s

/-- What each control frame watches of a run (R124): its conditions, and the node's frame mean, which may move by 3 % from the
first of the preparation; a deviation halves the amplitude down to 0.5 % and then fails the run. -/
def annFrame (c : Fin 16) (s : State) : State :=
  let h := s.chan[c]
  if !annMayRun s c then
    if h.ann.state = .fitting then annBreak c s else annAbandon c s
  else if !annRunning h.ann.state || h.ann.state = .fitting then s
  else
    let n := h.ann.node.close
    let v0 := h.ann.node0.getD n.mean
    let s1 := onChan c (fun h => { h with ann := { h.ann with node := n, node0 := some v0 } }) s
    if 3 / 100 * v0 < (n.mean - v0).abs then
      if h.ann.amp ≤ 1 / 2 then annFail c 0 s1
      else onChan c (fun h => { h with ann := { h.ann with amp := max (1 / 2) (h.ann.amp / 2) } }) (annAbandon c s1)
    else annTimes c s1

end Sys2Proof.Machine
end

