-- ==== Sys2Proof/Machine/Battery.lean ====
section
/-! DEFINITION. The battery ports: charge and discharge states, limits, safety timers, pulses and rests, taps, cell
over-voltage, balancing, the relaxation fit and the plating guard (chapters 7 and 8). A gang runs the state of its lowest
port (R207); the other ports of a formed gang run none. -/

namespace Sys2Proof.Machine
open Sys2Proof

/-! ### Values in force -/

/-- Temperature compensation for lead-acid codes, mV per cell (R185). -/
def tempComp (s : State) (p : Fin 4) : Q :=
  let c := chemVals (chem s p)
  let k : Q := ((if paramAt s 0x444 p.val = 0 then c.kt else paramAt s 0x444 p.val) : Int)
  if leadAcid (chem s p) then k / 10 * (max 0 (min 50 s.bat[p].tMean) - 25) else 0

def chemV (s : State) (p : Fin 4) (base : Nat) (c : Int) : Q := (orChem (paramAt s base p.val) c : Q)
def vAbs (s : State) (p : Fin 4) : Q := chemV s p 0x424 (chemVals (chem s p)).abs + tempComp s p
def vOcvt (s : State) (p : Fin 4) : Q := chemV s p 0x428 (chemVals (chem s p)).ocvt + tempComp s p
def vFlt (s : State) (p : Fin 4) : Q := chemV s p 0x42C (chemVals (chem s p)).flt + tempComp s p
def vEq (s : State) (p : Fin 4) : Q := chemV s p 0x430 (chemVals (chem s p)).eq + tempComp s p
def vPre (s : State) (p : Fin 4) : Q := chemV s p 0x434 (chemVals (chem s p)).pre
def vCut (s : State) (p : Fin 4) : Q := chemV s p 0x438 (chemVals (chem s p)).cut
def vRst (s : State) (p : Fin 4) : Q := chemV s p 0x43C (chemVals (chem s p)).rst
def vRec (s : State) (p : Fin 4) : Q := ((chemVals (chem s p)).recov : Q)
def dvRc (s : State) (p : Fin 4) : Q := chemV s p 0x440 (chemVals (chem s p)).rc
def dvHi (s : State) : Q := (param s 0x47D : Q)
def chgOption (s : State) (p : Fin 4) (b : Nat) : Bool := (paramAt s 0x400 p.val).toNat.testBit b
def cellOption (s : State) (p : Fin 4) (b : Nat) : Bool := (paramAt s 0x500 p.val).toNat.testBit b
def iBulk (s : State) (p : Fin 4) : Q := (paramAt s 0x408 p.val : Q) * 10
def iPre (s : State) (p : Fin 4) : Q :=
  let k := paramAt s 0x420 p.val; if k = 0 then iBulk s p / 10 else (k : Q) * 10
/-- C_nom in mAh; 0 is unknown. -/
def cNom (s : State) (p : Fin 4) : Q := (paramAt s 0x404 p.val : Q) * 100
def iEqualise (s : State) (p : Fin 4) : Q := cNom s p / 20
def iDisMax (s : State) (p : Fin 4) : Q := (paramAt s 0x40C p.val : Q) * 10
/-- Q_RC in mAh. -/
def qRc (s : State) (p : Fin 4) : Q :=
  let k := paramAt s 0x478 p.val
  if k ≠ 0 then (k : Q) * 100 else if cNom s p = 0 then 2000 else cNom s p / 20
def tChgHi (s : State) (p : Fin 4) : Q := (paramAt s 0x464 p.val : Q) / 2
def tChgLo (s : State) (p : Fin 4) : Q := (paramAt s 0x468 p.val : Q) / 2
def tDsgHi (s : State) (p : Fin 4) : Q := (paramAt s 0x46C p.val : Q) / 2
def tDsgLo (s : State) (p : Fin 4) : Q := (paramAt s 0x470 p.val : Q) / 2
/-- N_s = N_seg × m (R215). -/
def nCells (s : State) (p : Fin 4) : Q := ((s.bat[p].nSeg * cps s p : Nat) : Q)
def lithium (c : Nat) : Bool := c = 1 || c = 2 || c = 3

/-- Run as a primary pack: the wire (R178) or code 6 (R179). -/
def primaryPort (s : State) (p : Fin 4) : Bool := primaryWire s p || chem s p = 6

/-- The length of one frame, s. -/
def tick256 : Q := 256 / 1000000

/-- A time counted in frames reaches its limit within the frame that runs (log 13). -/
def ripe (t limit : Q) : Bool := decide (limit ≤ t + tick256)

/-- Taps unused on a port that is no non-lowest port of a formed gang (R215). -/
def tapsUnused (s : State) (p : Fin 4) : Bool := segs s p = 31 && gangLow s p = p

/-- The V_OVP of the wires keeps the orders of R184 with the chemistry values, and the factory ΔV_HI: no image entry repairs it (R220). -/
def ovpFits (s : State) (p : Fin 4) : Bool := chargeOrderOk s (fun k => if k = 0x47D then factory s 0x47D else 0) p

/-- The cell configuration holds the charge state in Off (R215, R220). -/
def cellConfigBad (s : State) (p : Fin 4) : Bool :=
  let c := chem s p
  ((c = 1 || c = 2 || c = 3 || c = 6) && cpsField s p ≠ 0) || 4 ≤ cpsField s p || (tapsUnused s p && 1 ≤ c && c ≤ 6) ||
  !ovpFits s p

/-- Code 0 or 7, a bad cell configuration or a refused gang: the port does not charge. -/
def heldOff (s : State) (p : Fin 4) : Bool := chem s p = 0 || chem s p = 7 || cellConfigBad s p || inRefusedGang s p

/-- The store engine runs the port: enabled, the lowest of its gang, its engine up, and begun (R516). -/
def batActive (s : State) (p : Fin 4) : Bool :=
  batEn s p && gangLow s p = p && engineUp s (batEngine s p) && deviceRuns s && !s.mbox.portsDue

/-- I_PROG of a charge state, mA (table "Charge states"). -/
def iProgOf (s : State) (p : Fin 4) : Charge → Q
  | .preCharge => iPre s p
  | .bulk | .absorption | .float => iBulk s p
  | .equalise => iEqualise s p
  | _ => 0

/-- V_LIM of a charge state; none where there is no voltage limit. -/
def vLimOf (s : State) (p : Fin 4) : Charge → Option Q
  | .bulk | .absorption => some (vAbs s p)
  | .float => some (vFlt s p)
  | .equalise => some (vEq s p)
  | _ => none

/-- Limit of the state's safety timer, s (R197, table "Battery parameters"). -/
def timerLimit (s : State) (p : Fin 4) : Charge → Q
  | .preCharge => (paramAt s 0x450 p.val : Q) * 60
  | .bulk =>
    let k := paramAt s 0x454 p.val
    if k ≠ 0 then (k : Q) * 60
    else if cNom s p = 0 then 43200 else min 172800 (3 / 2 * cNom s p / iBulk s p * 3600 + 3600)
  | .absorption => (paramAt s 0x458 p.val : Q) * 60
  | .equalise => 2 * (paramAt s 0x45C p.val : Q) * 60
  | _ => 0

/-! ### Events, counters, fault bits -/

def faultBit (b : Nat) (p : Fin 4) (s : State) : State := onBat p (fun x => { x with faultWord := putBit x.faultWord b true }) s
def mvField (v : Q) : List Byte := quantU 2 v

def chargeCode : Charge → Nat
  | .off => 0 | .qualification => 1 | .preCharge => 2 | .bulk => 3 | .absorption => 4 | .float => 5 | .maintenance => 6
  | .equalise => 7 | .dormant => 8 | .dischargeOnly => 9 | .hold => 10

/-- Causes of a change of charge state, as the event gives them: the spec gives no codes (log 19). -/
inductive Why where
  | boot | option | routed | condition | timer | command | engine | overvoltage | pause | tap | retry
  deriving DecidableEq, Repr

def whyNo : Why → Nat
  | .boot => 0 | .option => 1 | .routed => 2 | .condition => 3 | .timer => 4 | .command => 5 | .engine => 6
  | .overvoltage => 7 | .pause => 8 | .tap => 9 | .retry => 10

def whyCode (w : Why) : Byte := Config.eventCode 0x0401 (whyNo w)

/-! ### Rests (R194) -/

/-- A rest set up for the next ring boundary; only one port's capture runs at a time (R227). -/
def startRest (p : Fin 4) (probe : Bool) (s : State) : State :=
  onBat p (fun x => { x with
    resting := true, probing := probe, probed := x.probed || probe, rests := if probe then x.rests else x.rests + 1, restTime := 0,
    pulseTime := 0, probeTime := if probe then 0 else x.probeTime, restT0 := none, capV := [], capI := [] })
    (onChan (chanOfBat p) (fun h => { h with restDue := true }) s)

def captureFree (s : State) (p : Fin 4) : Bool := (List.finRange 4).all fun q => q = p || !s.bat[q].resting

/-- A rest may start: no run of Annealing in progress (R212), no capture of another port (R227). -/
def restAllowed (s : State) (p : Fin 4) : Bool :=
  !annRunning s.chan[chanOfBat p].ann.state && captureFree s p && switching s (chanOfBat p)

/-! ### Charge states (R190) -/

/-- A state's entry restarts its timer and every condition's time. -/
def enterCharge (s : State) (p : Fin 4) (c : Charge) (x : Bat) : Bat :=
  { x with charge := c, timer := 0, preTime := 0, floatTime := 0, eqTime := 0, vReg := none, regBinds := false, regTime := 0,
           pulseTime := 0, restTime := 0, probeTime := 0, probed := false, qual := {}, retryTime := 0,
           passes := 0, fitFails := 0, rests := 0, restLen := (paramAt s 0x44C p.val : Q), netDis := 0, resting := false,
           fitDue := false, qualRetry := false, qualWait := false, iProg := iProgOf s p c,
           probeSeen := x.probeSeen && c = .absorption }

/-- A change of charge state with its event, and the end of Equalise with its own (R211). -/
def setCharge (p : Fin 4) (c : Charge) (w : Why) (s : State) : State :=
  let old := s.bat[p].charge
  let s1 := onBat p (enterCharge s p c) (clearRest p s)
  if old = c then s1
  else
    let s2 := pushEvent 0x0401 [byte p.val, byte (chargeCode old), byte (chargeCode c), whyCode w] s1
    if old = .equalise then pushEvent 0x040C [byte p.val, Config.eventCode 0x040C (whyNo w)] s2 else s2

/-- Dormant: the AON flag, the counter and the event with its cause (R199, R200). -/
def enterDormant (p : Fin 4) (cause : Nat) (w : Why) (s : State) : State :=
  let hit := s.bat[p].cDormant.hits
  let s1 := setCharge p .dormant w s
  let s2 := onBat p (fun x => { x with cDormant := x.cDormant.bump })
    { s1 with aon := { s1.aon with dormant := putBit s1.aon.dormant p.val true } }
  batSat p 1 hit (pushEvent 0x0405 [byte p.val, Config.eventCode 0x0405 cause] s2)

/-- Qualification, which waits for the stop of a tap fault (R218). -/
def enterQual (p : Fin 4) (w : Why) (s : State) : State :=
  onBat p (fun x => { x with qualWait := x.tapStop }) (setCharge p .qualification w s)

/-- States that charge or may come to charge: Qualification is entered from these only (table "Charge states"). -/
def mayQualify (c : Charge) : Bool := !(c = .off || c = .dormant || c = .dischargeOnly || c = .hold)

/-- The charge state at the start of a store engine's work on a port (R190, R200, R208); N_seg is SEGS where the wires give
one (R215). -/
def startCharge (p : Fin 4) (w : Why) (s : State) : State :=
  let s1 := onBat p (fun x => { x with
    afterClear := false, cut := x.cut || tapsUnused s p, nSeg := if segs s p = 0 || segs s p = 31 then x.nSeg else segs s p }) s
  if heldOff s1 p then setCharge p .off w s1
  else if primaryPort s1 p then setCharge p .dischargeOnly w s1
  else if s1.aon.dormant.getLsbD p.val then setCharge p .dormant w s1
  else if !chgOption s1 p 0 then setCharge p .off w s1
  else enterQual p w s1

/-- A reserved SEGS, told at each boot, on a non-lowest port of a gang too (R214). -/
def reservedSegs (s : State) (p : Fin 4) : Bool := decide (17 ≤ segsField s p) && decide (segsField s p ≤ 30)

/-- Configuration events at boot: code 7 and the unflagged primary (0x040E), the gang (0x040E), the cell word (0x0509).
Causes in their order: reserved code, primary by Anvil, gang refused; cells per segment, taps unused or reserved, V_OVP (log 19). -/
def configEvents (p : Fin 4) (s : State) : State :=
  let e (b : Bool) (code : Half) (cause : Nat) (s : State) : State := if b then pushEvent code [byte p.val, Config.eventCode code cause] s else s
  let c := chem s p
  let s1 := e (c = 7) 0x040E 0 s
  let s2 := e (c = 6 && !primaryWire s p) 0x040E 1 s1
  let s3 := if inRefusedGang s p then faultBit 11 p (e true 0x040E 2 s2) else s2
  let s4 := e (((c = 1 || c = 2 || c = 3 || c = 6) && cpsField s p ≠ 0) || 4 ≤ cpsField s p) 0x0509 0 s3
  let s5 := e ((tapsUnused s p && 1 ≤ c && c ≤ 6) || reservedSegs s p) 0x0509 1 s4
  e (!ovpFits s p) 0x0509 2 s5

/-! ### Qualification (R191 to R193, R217, R218) -/

/-- Populated segments read at least m × 0.30 V; the count of those below the first unpopulated one. -/
def detectedCount (m : Nat) (low : List Q) : Nat := (low.takeWhile fun v => decide ((m : Q) * 300 ≤ v)).length

def populatedAbove (m : Nat) (low : List Q) : Bool := (low.drop (detectedCount m low)).any fun v => decide ((m : Q) * 300 ≤ v)

def minQ : List Q → Q
  | [] => 0
  | a :: l => l.foldl min a
def maxQ : List Q → Q
  | [] => 0
  | a :: l => l.foldl max a

/-- The port's segment readings for decisions, mV, lowest segment first. -/
def segReadings (s : State) (p : Fin 4) : List Q := s.bat[p].quiet.toList.map (·.mean)

/-- The count of R217: taken in the first 100 ms, in force from then on. -/
def countNow (s : State) (p : Fin 4) : Nat :=
  let q := s.bat[p].qual
  if q.time ≤ 1 / 10 then detectedCount (cps s p) (segReadings s p) else q.count

/-- The count that check 2 calls for: SEGS, or the one accepted in this boot (R217). -/
def countWanted (s : State) (p : Fin 4) : Option Nat := if segs s p = 0 then s.bat[p].accepted else some (segs s p)

/-- A tap fault as check 2 sees it in one frame (R217, R218). -/
def tapsBad (s : State) (p : Fin 4) : Bool :=
  s.bat[p].openMask ≠ 0 || (decide (s.bat[p].qual.time ≤ 1 / 10) && populatedAbove (cps s p) (segReadings s p))

/-- The first of the checks of R191 that the frame just ended breaks, numbered as there. -/
def qualCheckNow (s : State) (p : Fin 4) : Option Nat :=
  let x := s.bat[p]
  let n := countNow s p
  let cells := ((segReadings s p).take n).map fun (v : Q) => v / ((cps s p : Nat) : Q)
  let v := x.vBank.mean
  if v < 2000 || 5 / 100 * v + 500 < (v - x.vTaps.mean).abs then some 1
  else if tapsBad s p || (countWanted s p).any fun k => n ≠ k then some 2
  else if lithium (chem s p) && minQ cells < vRec s p then some 3
  else if vAbs s p + dvHi s < maxQ cells then some 4
  else if !x.ntcOk then some 5
  else if !s.clk.vdrvOk then some 6
  else none

/-- One frame of a Qualification that runs: its checks hold throughout (R191), and what routes it is gathered (R192). -/
def batQualFrame (p : Fin 4) (s : State) : State :=
  let x := s.bat[p]
  if x.charge = .qualification && !x.qualWait && !x.qualRetry then
    let q := x.qual
    let now := qualCheckNow s p
    let n := countNow s p
    let cause : Fin 3 := if q.bad.isNone && now = some 2 then (if tapsBad s p then 1 else 2) else x.qualCause
    onBat p (fun x => { x with
      nSeg := if segs s p = 0 && x.accepted.isNone then n else x.nSeg, qualCause := cause,
      qual := { time := q.time + tick256, v := q.v.add x.vBank.mean, cells := vmapIdx q.cells fun k a => a.add (x.quiet[k].mean),
                count := n, bad := q.bad.orElse fun _ => now,
                atRest := q.atRest && decide (x.iBank.peak < 2 / 100 * iBulk s p) } }) s
  else s

/-- Per-cell means over the Qualification. -/
def qualCells (s : State) (p : Fin 4) : List Q :=
  let q := s.bat[p].qual
  (q.cells.toList.take q.count).map fun a => accMean a / (cps s p : Nat)

/-- The check that a Qualification fails at its end: 7 is "pre-charge not allowed" (R192), 0 is none. -/
def qualCheck (s : State) (p : Fin 4) (selfTest : Bool) : Nat :=
  match s.bat[p].qual.bad with
  | some k => if !selfTest && 2 < k then 2 else k
  | none =>
    if !selfTest then 2
    else if minQ (qualCells s p) < vPre s p && !chgOption s p 1 then 7
    else 0

/-- R192, on the means over the 2 s (log 121). -/
def routeOf (s : State) (p : Fin 4) : Charge :=
  let q := s.bat[p].qual
  let low := minQ (qualCells s p)
  let ns : Q := ((q.count * cps s p : Nat) : Q)
  if low < vPre s p then .preCharge
  else if leadAcid (chem s p) && q.atRest && ns * (vOcvt s p - dvRc s p) ≤ accMean q.v then .float
  else if lithium (chem s p) && q.atRest && vOcvt s p - dvRc s p ≤ low then .maintenance
  else .bulk

/-- R193. -/
def qualFailed (p : Fin 4) (check : Nat) (s : State) : State :=
  let x := s.bat[p]
  let s1 := faultBit 4 p (onBat p (fun x => { x with cQualFail := x.cQualFail.bump, qualRetry := true, retryTime := 0 }) s)
  let s2 := if check = 3 then faultBit 5 p s1 else s1
  let s3 := batSat p 5 x.cQualFail.hits (pushEvent 0x0402 [byte p.val, byte check] s2)
  if check = 3 || x.afterClear then enterDormant p 4 .condition (onBat p (fun x => { x with afterClear := false }) s3) else s3

def qualPassed (p : Fin 4) (s : State) : State :=
  let n := s.bat[p].qual.count
  let fresh := segs s p = 0 && s.bat[p].accepted.isNone
  let next := routeOf s p
  let s1 := onBat p (fun x => { x with nSeg := n, afterClear := false, qualCause := 0, accepted := if fresh then some n else x.accepted }) s
  let s2 := if fresh then pushEvent 0x0501 ([byte p.val] ++ le 2 (n : Nat) ++ [byte (segsField s p)]) s1 else s1
  setCharge p next .routed s2

/-- The verdict of the 2 s, with the comparators' self-test (R191, R218). -/
def qualEnd (p : Fin 4) (selfTest : Bool) (s : State) : State :=
  let k := qualCheck s p selfTest
  let s1 := if !selfTest && k = 2 then onBat p (fun x => { x with qualCause := 1 }) s else s
  if k = 0 then qualPassed p s else qualFailed p k s1

def execBatteryQualificationEnd (port : Fin 4) (selfTest : Bool) (s : State) : Host.Outcome State Fault Refusal :=
  let x := s.bat[port]
  .next (if x.charge = .qualification && !x.qualWait && !x.qualRetry && batActive s port && ripe x.qual.time 2 then qualEnd port selfTest s
    else s)

/-- R193: a new qualification after 60 s. -/
def qualAgain (p : Fin 4) (s : State) : State := onBat p (fun x => { x with qualRetry := false, retryTime := 0, qual := {} }) s

def retryDue (s : State) (p : Fin 4) : Bool := s.bat[p].charge = .qualification && s.bat[p].qualRetry

def execQualificationRetry (port : Fin 4) (s : State) : Host.Outcome State Fault Refusal :=
  .next (if retryDue s port && ripe s.bat[port].retryTime 60 then qualAgain port s else s)

/-! ### Timers, pulses, rests and fits -/

def timerState : ChargeTimer → Charge
  | .preCharge => .preCharge | .bulk => .bulk | .absorption => .absorption | .equalise => .equalise
def timerBit : ChargeTimer → Nat
  | .preCharge => 0 | .bulk => 1 | .absorption => 2 | .equalise => 3

/-- R194 step 2: the pulse is over, with at least 5 % of the scaled I_PROG as the mean charge current of the last 10 ms. -/
def pulseOver (s : State) (p : Fin 4) : Bool :=
  let x := s.bat[p]
  x.charge = .absorption && !x.resting && ripe x.pulseTime ((paramAt s 0x448 p.val : Q) / 10) &&
  decide (5 / 100 * (x.iProg * phaseScale s (chanOfBat p)) ≤ -(x.iHist.foldl (· + ·) 0 / 39)) && restAllowed s p

/-- A pulse without that current goes on. -/
def execPulseEnd (port : Fin 4) (s : State) : Host.Outcome State Fault Refusal :=
  .next (if pulseOver s port then startRest port false s else s)

/-- Length of the rest that runs, s: 5 ms for a probe (R194, R230). -/
def restLimit (x : Bat) : Q := if x.probing then 5 / 1000 else x.restLen / 1000

/-- R194 step 4: the rest ends, and its capture awaits its fit. -/
def endRest (p : Fin 4) (s : State) : State := onBat p (fun x => { x with fitDue := true, fitTime := 0 }) (clearRest p s)

def execRestEnd (port : Fin 4) (s : State) : Host.Outcome State Fault Refusal :=
  let x := s.bat[port]
  .next (if x.resting && s.chan[chanOfBat port].restHold && ripe x.restTime (restLimit x) then endRest port s else s)

def execRestDisturbed (port : Fin 4) (s : State) : Host.Outcome State Fault Refusal :=
  .next (if s.bat[port].resting then disturbRest port s else s)

/-- R230: in Bulk, for codes 1 and 2 with option bit 2, the first probe is due after 10 s of charging at no less than 5 % of I_PROG,
the others after each probe interval; Annealing defers one (R212, R236). -/
def probeDue (s : State) (p : Fin 4) : Bool :=
  let x := s.bat[p]
  x.charge = .bulk && !x.resting && (chem s p = 1 || chem s p = 2) && cellOption s p 2 &&
  ripe x.probeTime (if x.probed then (param s 0x51C : Q) else 10) && restAllowed s p

def execProbeRest (port : Fin 4) (s : State) : Host.Outcome State Fault Refusal :=
  .next (if probeDue s port then startRest port true s else s)

/-! ### The relaxation capture and its fit (R227 to R229) -/

def meanQ? (l : List Q) : Option Q := if l.isEmpty then none else some (l.foldl (· + ·) 0 / l.length)

/-- Where the least-squares straight line through points (x, y) meets x = 0 (R228). -/
def lineAtZero (pts : List (Q × Q)) : Option Q :=
  let n : Q := pts.length
  let sum (f : Q × Q → Q) : Q := pts.foldl (fun a q => a + f q) 0
  let sx := sum (·.1)
  let sxx := sum fun q => q.1 * q.1
  let det := n * sxx - sx * sx
  if det = 0 then none else some ((sum (·.2) * sxx - sx * sum fun q => q.1 * q.2) / det)

/-- TB counts from t0 to a stamp, negative before it. -/
def fromT0 (t0 t : TB) : Int := (t.toNat : Int) - t0.toNat

/-- The paired currents of the last 16 µs before t0: their mean is I_pre (R228). -/
def iPreEdge (t0 : TB) (x : Bat) : Option Q :=
  meanQ? ((x.capI.filter fun c => decide (-1600 ≤ fromT0 t0 c.1) && decide (fromT0 t0 c.1 < 0) && x.capV.any fun v => v.1 = c.1).map (·.2))

/-- The edge t_e: the first current sample from t0 on below 2 % of I_pre, with its value. -/
def edgeOf (t0 : TB) (iPre : Q) (x : Bat) : Option (TB × Q) :=
  x.capI.reverse.find? fun c => decide (0 ≤ fromT0 t0 c.1) && decide (c.2.abs < 2 / 100 * iPre.abs)

/-- An edge later than 50 µs fails the fit (R227). -/
def edgeInTime (t0 te : TB) : Bool := decide (fromT0 t0 te ≤ 5000)

/-- A segment's samples: counts from t0, and mV, oldest first. -/
def segSamples (t0 : TB) (k : Fin 16) (x : Bat) : List (Int × Q) :=
  ((x.capV.filter fun v => v.2.1 = k).map fun v => (fromT0 t0 v.1, v.2.2)).reverse

/-- R_Ω of a segment, mΩ (R228). -/
def rOhmOf (ss : List (Int × Q)) (te : Int) (iPre iE : Q) : Option Q :=
  match meanQ? ((ss.filter fun q => decide (-1600 ≤ q.1) && decide (q.1 < 0)).map (·.2)),
        lineAtZero ((ss.filter fun q => decide (te + 1000 ≤ q.1) && decide (q.1 ≤ te + 6000)).map fun q => (((q.1 - te : Int) : Q), q.2)) with
  | some vPre, some v0 => if iPre = iE then none else some (1000 * (v0 - vPre) / (iPre - iE))
  | _, _ => none

/-- The mean of some samples as one point: s from the edge, mV. -/
def capPoint (te : Int) (l : List (Int × Q)) : Option (Q × Q) :=
  match meanQ? (l.map fun q => ((q.1 - te : Int) : Q) / 100000000), meanQ? (l.map (·.2)) with
  | some t, some v => some (t, v)
  | _, _ => none

/-- Consecutive groups of 16 rotations. -/
def groups16 : Nat → List (Int × Q) → List (List (Int × Q))
  | 0, _ => []
  | n + 1, l => if l.length < 16 then [] else l.take 16 :: groups16 n (l.drop 16)

/-- The 80 points of a fit: 32 equal parts of the burst from t_e + 60 µs to 1 ms, and the 48 log points (R229). -/
def fitPoints (ss : List (Int × Q)) (te : Int) : List (Q × Q) :=
  let a := te + 6000
  let w := 100000 - a
  let part (j : Nat) : List (Int × Q) :=
    ss.filter fun q => decide (a * 32 + w * j ≤ q.1 * 32) && decide (q.1 * 32 < a * 32 + w * (j + 1))
  ((List.range 32).map part ++ groups16 48 (ss.filter fun q => decide (100000 ≤ q.1))).filterMap (capPoint te)

/-- What a fit gives of a segment: V_∞, mV, R_Ω, mΩ, and whether it passed. -/
structure SegFit where
  vInf : Q
  rOhm : Q
  pass : Bool
  deriving DecidableEq, Repr

/-- The passing conditions of R229 on a decay fitted to points; the bank current is judged apart. -/
def decayOk (m restS : Q) (pts : List (Q × Q)) (f : Q × Q × Q) : Bool :=
  let (vInf, a, tau) := f
  let vs := pts.map (·.2)
  let err (q : Q × Q) : Q := q.2 - (vInf + a * (1 - Config.lag (q.1 / tau)))
  let bound := max m (2 / 100 * (vs.foldl max (vs.headD 0) - vs.foldl min (vs.headD 0)))
  let ms := if pts.isEmpty then 0 else pts.foldl (fun t q => t + err q * err q) 0 / pts.length
  !pts.isEmpty && decide (ms ≤ bound * bound) && decide (1 / 10000 ≤ tau) && decide (tau ≤ 2 * restS) && decide (0 ≤ a)

/-- R_Ω lies within m × 0.02 mΩ to m × 500 mΩ. -/
def rInRange (m r : Q) : Bool := decide (m * 2 / 100 ≤ r) && decide (r ≤ m * 500)

/-- The fit of one segment (R228, R229). -/
def fitSegment (s : State) (p : Fin 4) (t0 te : TB) (iPre iE : Q) (k : Fin 16) : SegFit :=
  let x := s.bat[p]
  let m : Q := (cps s p : Nat)
  let e := fromT0 t0 te
  let ss := segSamples t0 k x
  let pts := fitPoints ss e
  let f := Config.fitDecay pts
  let r := (rOhmOf ss e iPre iE).getD 0
  let quietI := (x.capI.filter fun c => decide (e < fromT0 t0 c.1)).all fun c => decide (c.2.abs ≤ iPre.abs / 100)
  { vInf := f.1, rOhm := r, pass := decayOk m (restLimit x) pts f && rInRange m r && quietI }

/-- The fits of a capture, and whether its edge met R227; none where the capture holds no edge. -/
def captureFits (s : State) (p : Fin 4) : List SegFit × Bool :=
  let x := s.bat[p]
  match x.restT0 with
  | none => ([], false)
  | some t0 =>
    match iPreEdge t0 x with
    | none => ([], false)
    | some iPre =>
      match edgeOf t0 iPre x with
      | none => ([], false)
      | some (te, iE) =>
        (((List.finRange 16).take x.nSeg).map (fitSegment s p t0 te iPre iE), edgeInTime t0 te)

/-- A fit passes when its edge met R227 and every populated segment's fit passed; for a probe, each R_Ω lies in its range (R229,
R230). -/
def fitPassed (s : State) (p : Fin 4) (fits : List SegFit) (edgeOk probe : Bool) : Bool :=
  let m : Q := (cps s p : Nat)
  edgeOk && !fits.isEmpty && fits.all fun f => (f.pass || probe) && rInRange m f.rOhm

def sumQ (l : List Q) : Q := l.foldl (· + ·) 0

/-- R232: S of a chemistry, and a resistance at 25 °C. -/
def rTempS (c : Nat) : Q := if c = 3 then 30 else if c = 4 || c = 5 then 25 else 20
def pow2Of (x : Q) : Q := twoTo x.floor * (if x = x.floor then 1 else Config.pow2 (x - x.floor))
def r25Of (s : State) (p : Fin 4) (r : Q) : Q := r * pow2Of ((s.bat[p].tMean - 25) / rTempS (chem s p))

/-- The resistance state of health after a passed fit or probe, in %: the reference learnt from the first eight fits where the
key is 0, clamped to 0 to 200 and smoothed as the mean of 32 values (R232). -/
def learnSoh (s : State) (p : Fin 4) (probe : Bool) (x : Bat) : Bat :=
  let top := maxQ ((x.rLast.toList.take x.nSeg).map (r25Of s p))
  let learn := if x.rLearn.length < 8 && !probe then top :: x.rLearn else x.rLearn
  let key := paramAt s 0x518 p.val
  let ref := if key ≠ 0 then some ((key : Q) / 100) else if learn.length = 8 then some (sumQ learn / 8) else none
  let vals := match ref with
    | some r => ((if top = 0 then 200 else max 0 (min 200 (100 * r / top))) :: x.sohVals).take 32
    | none => x.sohVals
  { x with rLearn := learn, sohVals := vals, sohR := if vals.isEmpty then none else some (sumQ vals / vals.length) }

/-- What every passed edge gives, of a fit or a probe: R_Ω per cell for R202 and R231, the bank's R_Ω, the state of health. -/
def storeEdge (s : State) (p : Fin 4) (fits : List SegFit) (probe : Bool) (x : Bat) : Bat :=
  let m : Q := (cps s p : Nat)
  let r (i : Fin 16) : Q := (fits.map (·.rOhm)).getD i.val 0 / m
  let probes := if chem s p = 1 || chem s p = 2 then ((fits.map fun f => f.rOhm / m) :: x.probes).take 4 else x.probes
  learnSoh s p probe { x with rLast := Vector.ofFn r, rBank := sumQ (fits.map (·.rOhm)), probes := probes, probeSeen := true }

/-- The last passed fit of the table "Cell telemetry": R_Ω, R_25 and V_∞ per cell, and the bank's V_∞ (R229, R234). -/
def storeFit (s : State) (p : Fin 4) (fits : List SegFit) (x : Bat) : Bat :=
  let m : Q := (cps s p : Nat)
  let r (i : Fin 16) : Q := (fits.map (·.rOhm)).getD i.val 0 / m
  storeEdge s p fits false { x with
    rOhm := Vector.ofFn r, r25 := Vector.ofFn (fun i => r25Of s p (r i)),
    cellInf := Vector.ofFn (fun i => (fits.map (·.vInf)).getD i.val 0 / m), vInf := sumQ (fits.map (·.vInf)) }

/-- The condition of R195. -/
def ocvMet (s : State) (p : Fin 4) (fits : List SegFit) : Bool :=
  let x := s.bat[p]
  let m : Q := (cps s p : Nat)
  let cells := (fits.take x.nSeg).map fun f => f.vInf / m
  if leadAcid (chem s p) then nCells s p * vOcvt s p ≤ sumQ ((fits.take x.nSeg).map (·.vInf))
  else !cells.isEmpty && (vOcvt s p ≤ sumQ cells / cells.length || vOcvt s p + dvHi s ≤ maxQ cells)

/-- R195: termination sets the state of charge to 100 % and goes to Float or Maintenance. -/
def terminateCharge (p : Fin 4) (s : State) : State :=
  let x := s.bat[p]
  let s1 := onBat p (fun x => { x with soc := 100, socKnown := true, netSince := 0, chargedSince := false,
                                       coldSince := decide (x.tMean < 15), cTerm := x.cTerm.bump }) s
  let s2 := batSat p 0 x.cTerm.hits
    (pushEvent 0x0403 ([byte p.val] ++ mvField x.vInf ++ quantU 2 (x.rBank * 10) ++ le 2 (x.rests : Nat)) s1)
  setCharge p (if leadAcid (chem s p) then .float else .maintenance) .condition s2

/-- A failed fit breaks the sequence and doubles the rest, up to 10 s; the eighth in a row is a charger fault and an event. -/
def fitFailed (p : Fin 4) (s : State) : State :=
  let x := s.bat[p]
  let n := x.fitFails + 1
  let s1 := batSat p 4 x.cFitFail.hits
    (onBat p (fun x => { x with passes := 0, fitFails := n, restLen := min 10000 (2 * x.restLen), cFitFail := x.cFitFail.bump }) s)
  if n = 8 then pushEvent 0x0404 ([byte p.val] ++ le 2 (n : Nat)) (faultBit 7 p s1) else s1

/-- A fit that passes outside Absorption, and one that passes in it: two in succession that meet R195 end it. -/
def fitGood (p : Fin 4) (fits : List SegFit) (s : State) : State :=
  let x := s.bat[p]
  let s1 := onBat p (storeFit s p fits) s
  if x.charge ≠ .absorption then s1
  else
    let met := ocvMet s p fits
    let s2 := onBat p (fun x => { x with
      fitFails := 0, restLen := (paramAt s 0x44C p.val : Q), passes := if met then x.passes + 1 else 0 }) s1
    if met && 1 ≤ x.passes then terminateCharge p s2 else s2

/-- The fit of the capture of an undisturbed rest. A rest whose fit fails serves as a probe where its edge and R_Ω pass (R230). -/
def gladeFit (p : Fin 4) (s : State) : State :=
  let x := s.bat[p]
  let (fits, edgeOk) := captureFits s p
  let s0 := onBat p (fun x => { x with fitDue := false }) s
  let edge := fitPassed s p fits edgeOk true
  if x.probing then
    if edge then onBat p (storeEdge s p fits true) s0
    else batSat p 10 x.cProbe.hits (onBat p (fun x => { x with cProbe := x.cProbe.bump }) s0)
  else if fitPassed s p fits edgeOk false then fitGood p fits s0
  else fitFailed p (if edge && (chem s p = 1 || chem s p = 2) then onBat p (storeEdge s p fits true) s0 else s0)

def execGladeFitComplete (port : Fin 4) (s : State) : Host.Outcome State Fault Refusal :=
  .next (if s.bat[port].fitDue then gladeFit port s else s)

/-- R199: Dormant, a Note-class fault with the charger fault bit as its cause, and the charger fault. -/
def expireTimer (p : Fin 4) (t : ChargeTimer) (s : State) : State :=
  enterDormant p (timerBit t) .timer (reportUnit 0x23 3 p.val (timerBit t) 0 (faultBit (timerBit t) p s))

/-- The timer of the port's state. -/
def timerOf : Charge → Option ChargeTimer
  | .preCharge => some .preCharge | .bulk => some .bulk | .absorption => some .absorption | .equalise => some .equalise
  | _ => none

/-- The state's timer is at its limit: a fit that is due goes first, and a termination discards the timer (R198, R212). -/
def timerEnd (p : Fin 4) (s : State) : State :=
  let s1 := if s.bat[p].fitDue then gladeFit p s else s
  match timerOf s.bat[p].charge with
  | some t => if s1.bat[p].charge = s.bat[p].charge then expireTimer p t s1 else s1
  | none => s1

def execChargeTimerExpiry (port : Fin 4) (timer : ChargeTimer) (s : State) : Host.Outcome State Fault Refusal :=
  let x := s.bat[port]
  .next (if x.charge = timerState timer && decide (timerLimit s port x.charge ≤ x.timer) then timerEnd port s else s)

/-- 24 h in TB counts. -/
def day : Nat := 8640000000000

/-- R187: 12 h of pause. -/
def pauseOver (s : State) (p : Fin 4) : Bool := s.bat[p].paused && mayQualify s.bat[p].charge && ripe s.bat[p].pauseTime 43200

def execChargePauseTimeout (port : Fin 4) (s : State) : Host.Outcome State Fault Refusal :=
  .next (if pauseOver s port then enterQual port .pause s else s)

/-- R197: equalise becomes due, or is refused on a port with option bit 2 clear or C_nom 0. -/
def equaliseRefused (s : State) (p : Fin 4) : Bool := !chgOption s p 2 || cNom s p = 0
def makeEqualiseDue (p : Fin 4) (s : State) : State :=
  if equaliseRefused s p then
    pushEvent 0x040D [byte p.val, Config.eventCode 0x040D (if chgOption s p 2 then 1 else 0)] (faultBit 10 p s)
  else onBat p (fun x => { x with eqDue := true }) s

/-- The interval has elapsed since the last completed equalise, with option bit 2 set (R197). -/
def equaliseElapsed (s : State) (p : Fin 4) : Bool :=
  chem s p = 4 && chgOption s p 2 && batActive s p && paramAt s 0x460 p.val ≠ 0 && !s.bat[p].eqDue && s.bat[p].charge ≠ .equalise &&
  decide ((paramAt s 0x460 p.val).toNat * day ≤ (s.tb - s.bat[p].eqTb).toNat)

/-- The interval's equalise becomes due, or is refused; refused, the interval counts anew (log 121). -/
def equaliseFalls (p : Fin 4) (s : State) : State :=
  let s1 := if equaliseRefused s p then onBat p (fun x => { x with eqTb := s.tb }) s else s
  makeEqualiseDue p s1

def execEqualiseDue (port : Fin 4) (s : State) : Host.Outcome State Fault Refusal :=
  .next (if equaliseElapsed s port then equaliseFalls port s else s)

/-! ### Discharge (R201 to R205) -/

/-- Populated segments of the port, per cell, as last read for decisions (R225). -/
def cellVolts (s : State) (p : Fin 4) : List Q :=
  let m : Q := (cps s p : Nat)
  (s.bat[p].quiet.toList.take s.bat[p].nSeg).map fun a => a.mean / m

/-- The lowest cell: V_BANK / N_s − 0.15 V while a tap fault stands (R218). -/
def lowCell (s : State) (p : Fin 4) : Q :=
  if s.bat[p].tapStop then (if nCells s p = 0 then 0 else s.bat[p].vBank.mean / nCells s p - 150) else minQ (cellVolts s p)
def highCell (s : State) (p : Fin 4) : Q := maxQ (cellVolts s p)

/-- Capacity state of health at Cut-off with no charge since the last termination and T_m at 15 °C or more (R233). -/
def learnCapacity (s : State) (p : Fin 4) (x : Bat) : Bat :=
  if x.socKnown && !x.chargedSince && !x.coldSince && cNom s p ≠ 0 then { x with sohC := some (100 * x.netSince / cNom s p) } else x

/-- The lowest cell compensated by its own R_Ω times the bank current (R202); none is known in hold, where Warden has the records of
group D alone (R205; log 121). -/
def lowCompensated (s : State) (p : Fin 4) : Q :=
  let x := s.bat[p]
  if x.tapStop || x.charge = .hold then lowCell s p
  else minQ ((cellVolts s p).zip x.rLast.toList |>.map fun c => c.1 + c.2 * x.iBank.mean / 1000)

/-- Warden's cut-off stop stands on the port (R205). -/
def wardenCut (s : State) (p : Fin 4) : Bool := s.chan[chanOfBat p].stops.contains .hold

/-- The times of R202 after a frame. -/
def cutTimes (p : Fin 4) (s : State) : State :=
  if tapsUnused s p || (s.bat[p].nSeg = 0 && !s.bat[p].tapStop) then s
  else
    let low := decide (lowCompensated s p < vCut s p)
    let high := decide (vRst s p ≤ lowCell s p)
    onBat p (fun x => { x with cutTime := if low then x.cutTime + tick256 else 0, rstTime := if high then x.rstTime + tick256 else 0 }) s

/-- Cut-off: of the engine, or in hold as Warden's stop (R202, R205). -/
def cutOff (p : Fin 4) (s : State) : State :=
  let x := s.bat[p]
  let s1 := onBat p (fun x => { x with cCut := x.cCut.bump }) s
  let s2 := if x.charge = .hold then assertStop .hold (chanOfBat p) s1
            else onBat p (fun x => { learnCapacity s p x with cut := true }) s1
  batSat p 2 x.cCut.hits (pushEvent 0x0407 ([byte p.val] ++ mvField (lowCell s p)) s2)

/-- A cut-off is due: the state, or the stop in hold, not there yet. -/
def cutDue (s : State) (p : Fin 4) : Bool :=
  gangLow s p = p && batEn s p && ripe s.bat[p].cutTime 1 && 0 < s.bat[p].cutTime &&
  (if s.bat[p].charge = .hold then !wardenCut s p else !s.bat[p].cut)

/-- Cut-off left: the engine's state, and Warden's stop wherever it stands (R202, R205). -/
def cutOver (p : Fin 4) (s : State) : State :=
  let s1 := if s.bat[p].charge = .hold then s else onBat p (fun x => { x with cut := false }) s
  pushEvent 0x0408 ([byte p.val] ++ mvField (lowCell s p)) (if wardenCut s p then releaseStop .hold (chanOfBat p) s1 else s1)

def restoreDue (s : State) (p : Fin 4) : Bool :=
  ripe s.bat[p].rstTime 10 && !tapsUnused s p && (wardenCut s p || (s.bat[p].cut && s.bat[p].charge ≠ .hold))

def execDischargeCutoff (port : Fin 4) (s : State) : Host.Outcome State Fault Refusal :=
  .next (if cutDue s port then cutOff port s else s)

def execDischargeRestore (port : Fin 4) (s : State) : Host.Outcome State Fault Refusal :=
  .next (if restoreDue s port then cutOver port s else s)

/-- R203: the Ride has stayed above V_UN for 10 s. -/
def reserveDone (p : Fin 4) (s : State) : State := onBat p (fun x => { x with called := false }) s
def reserveQuiet (s : State) (p : Fin 4) : Bool := s.bat[p].called && ripe s.bat[p].callTime 10

def execReserveRelease (port : Fin 4) (s : State) : Host.Outcome State Fault Refusal :=
  .next (if reserveQuiet s port then reserveDone port s else s)

/-- R178: a Port-stop-class report; the guard's own stop stands already. -/
def execPrimaryChargeCurrent (port : Fin 4) (peak : Q) (s : State) : Host.Outcome State Fault Refusal :=
  .next (if primaryWire s port && s.clk.vcc then reportUnit 0x22 3 port.val 0 (rnd peak) (faultBit 8 port s) else s)

/-! ### Cell over-voltage and taps (R216 to R222) -/

/-- Times of trips within 24 h of now. -/
def recentTrips (now : TB) (l : List TB) : List TB := l.filter fun t => decide (now.toNat < t.toNat + day)

/-- A crossing with no stop standing is a trip: counted, stopped in the charge direction, reported; the third in 24 h is
reset-only (R221). -/
def ovpTrip (p : Fin 4) (k : Fin 16) (s : State) : State :=
  let x := s.bat[p]
  let trips := s.tb :: recentTrips s.tb x.ovpTrips
  let final := decide (3 ≤ trips.length)
  let s1 := onBat p (fun x => { x with ovp := if final then .resetOnly else .stopped, ovpMask := putBit x.ovpMask k.val true,
                                       ovpTrips := trips, ovpTb := s.tb, cTrips := x.cTrips.bump, fitDue := false }) (clearRest p s)
  let s2 := reportUnit 0x20 3 p.val k.val 0 (faultBit 9 p (assertStop .cellOvp (chanOfBat p) s1))
  let s3 := pushEvent 0x0504 ([byte p.val, byte k.val] ++ le64 s.tb ++ le 2 (trips.length : Nat)) s2
  let s4 := batSat p 8 x.cTrips.hits s3
  if final then pushEvent 0x0506 [byte p.val] s4 else s4

def execCellOvpTrip (port : Fin 4) (segment : Fin 16) (s : State) : Host.Outcome State Fault Refusal :=
  .next (if !s.clk.vcc || chem s port = 0 || chem s port = 7 || gangLow s port ≠ port then s
    else match s.bat[port].ovp with
      | .armed => ovpTrip port segment s
      | .stopped | .clearable =>
        onBat port (fun x => { x with ovp := .stopped, ovpTb := s.tb, ovpMask := putBit x.ovpMask segment.val true }) s
      | .resetOnly => onBat port (fun x => { x with ovpTb := s.tb, ovpMask := putBit x.ovpMask segment.val true }) s)

/-- R221 rule 3: 60 s below release; a reset-only stop stays. -/
def execOvpClearable (port : Fin 4) (s : State) : Host.Outcome State Fault Refusal :=
  .next (if s.bat[port].ovp = .stopped && decide (6000000000 ≤ (s.tb - s.bat[port].ovpTb).toNat) then onBat port (fun x => { x with ovp := .clearable }) s else s)

/-- The stop released by an accepted clear (R221, R222): source 0 command, 1 Anvil. -/
def releaseOvp (p : Fin 4) (src : Nat) (s : State) : State :=
  let s1 := releaseStop .cellOvp (chanOfBat p) (onBat p (fun x => { x with ovp := .armed, ovpMask := 0 }) s)
  let s2 := pushEvent 0x0505 [byte p.val, byte src] s1
  if mayQualify s2.bat[p].charge then enterQual p .overvoltage s2 else s2

/-- R218 steps 1 and 2; in Qualification an open tap fails check 2 instead. -/
def tapFault (p : Fin 4) (mask : Half) (s : State) : State :=
  let x := s.bat[p]
  let s1 := onBat p (fun x => { x with openMask := x.openMask ||| mask, tapPasses := 0 }) s
  if x.tapStop || x.charge = .qualification then s1
  else
    let s2 := onBat p (fun x => { x with tapStop := true, cTap := x.cTap.bump }) s1
    let m := s2.bat[p].openMask
    let s3 := reportUnit 0x21 3 p.val 0 m.toNat (assertStop .tapFault (chanOfBat p) s2)
    let s4 := batSat p 9 x.cTap.hits (pushEvent 0x0502 ([byte p.val] ++ le16 m) s3)
    if mayQualify x.charge then enterQual p .tap s4 else s4

def tapsWatched (s : State) (p : Fin 4) : Bool := s.clk.vcc && batEn s p && gangLow s p = p && segs s p ≠ 31

/-- The stop released after ten passes in succession; the waiting Qualification then runs, or waits on for an over-voltage
stop that stands beside it (R218, R236). -/
def tapRestored (p : Fin 4) (s : State) : State :=
  let s1 := releaseStop .tapFault (chanOfBat p)
    (onBat p (fun x => { x with tapStop := false, openMask := 0, tapPasses := 0, qualWait := x.ovp ≠ .armed }) s)
  pushEvent 0x0503 ([byte p.val] ++ le16 s.bat[p].openMask) s1

def execTapReversed (port : Fin 4) (segment : Fin 16) (s : State) : Host.Outcome State Fault Refusal :=
  .next (if tapsWatched s port then tapFault port (putBit 0 segment.val true) s else s)

/-! ### Balancing (R224, R225) -/

/-- Segments of one parity, as a mask. -/
def parityMask (odd : Bool) : Half := if odd then 0xAAAA else 0x5555

/-- The switches of a port that are closed outside the quiet window: those last written of the slot's parity; the hardware opens all
while the charge clamp is not zero and during a relaxation capture (R225). -/
def bleedClosed (s : State) (p : Fin 4) : Half :=
  let x := s.bat[p]
  if x.resting || s.chan[chanOfBat p].lim.neg ≠ 0 then 0 else x.bleedWritten &&& parityMask x.oddSlot

/-- Even and odd segments alternate (R225). -/
def execBalanceSlot (port : Fin 4) (s : State) : Host.Outcome State Fault Refusal :=
  .next (onBat port (fun x => { x with oddSlot := !x.oddSlot }) s)

/-- A switch not rewritten within two frames opens. -/
def execBalanceWriteTimeout (port : Fin 4) (s : State) : Host.Outcome State Fault Refusal :=
  .next (if 2 ≤ s.bat[port].bleedAge then onBat port (fun x => { x with bleedWritten := 0 }) s else s)

def vBmin (s : State) (p : Fin 4) : Q :=
  let k := paramAt s 0x510 p.val; if k = 0 then vOcvt s p - dvRc s p else (k : Q)

/-- The set of segments to bleed, with its hysteresis. -/
def bleedSet (s : State) (p : Fin 4) (x : Bat) : Half :=
  let cells := cellVolts s p
  let lo := minQ cells
  let on : Q := (paramAt s 0x508 p.val : Q)
  let off : Q := (paramAt s 0x50C p.val : Q)
  BitVec.ofNat 16 (bits (cells.zipIdx.map fun (v, k) =>
    if x.bleed.getLsbD k then decide (lo + off < v) else decide (lo + on ≤ v) && decide (vBmin s p ≤ v)))

def balanceAllowed (s : State) (p : Fin 4) (x : Bat) : Bool :=
  cellOption s p 0 && x.iCmd = 0 && !x.resting && !x.tapStop && x.ntcOk && tChgLo s p ≤ x.tHi && x.tHi ≤ tChgHi s p

/-- The frame's balancing: the switches rewritten, and the hours each of the slot's has been closed, 208 µs of the frame. -/
def balanceFrame (s : State) (p : Fin 4) (x : Bat) : Bat :=
  let set := if balanceAllowed s p x then bleedSet s p x else 0
  let w := set &&& parityMask x.oddSlot
  { x with bleed := set, bleedWritten := set, bleedAge := 0,
           bleedHours := vmapIdx x.bleedHours fun k h => if w.getLsbD k.val then h + 208 / 1000000 / 3600 else h }

/-! ### Plating guard (R231) -/

/-- The band of T_LO, entered upwards only 2 °C above its lower edge: 0 below the floor, 3 without a limit; at first the one it lies
in. -/
def bandOf (tf t : Q) (old : Option (Fin 4)) : Fin 4 :=
  let raw (h : Q) : Nat := if t < tf + h then 0 else if t < tf + 10 + h then 1 else if t < tf + 20 + h then 2 else 3
  Fin.ofNat 4 (match old with
    | some b => max (min (raw 0) b.val) (raw 2)
    | none => raw 0)

/-- R_max of the cell with the highest resistance: the latest passed probe or the mean of the last four, per cell in mΩ. -/
def rMax (x : Bat) : Option Q :=
  match x.probes with
  | [] => none
  | r :: rs =>
    let top := maxQ r
    let k := r.findIdx (· = top)
    let all := (r :: rs).map fun l => l.getD k 0
    some (max top (sumQ all / all.length))

/-- I_PLAT and its binding term (0 none, 1 floor, 2 temperature, 3 resistance). -/
def plating (s : State) (p : Fin 4) (x : Bat) : Option Q × Fin 4 × Fin 4 :=
  let c := chem s p
  let tf : Q := ((chemVals c).clo : Q)
  let b := bandOf tf x.tLo x.band
  let full := c = 1 || c = 2
  let base := if cNom s p = 0 then iBulk s p else cNom s p
  let it : Option Q :=
    if !full then (if chargeable c && x.tLo < tf then some 0 else none)
    else if b = 0 then some 0 else if b = 1 then some (base / 10) else if b = 2 then some (3 * base / 10) else none
  let at0 := it = some 0
  let dv : Q := let k := paramAt s 0x514 p.val; if k ≠ 0 then (k : Q) else if c = 1 then 60 else 80
  let ir : Option Q := if full && x.probeSeen then (rMax x).bind fun r => if r = 0 then none else some (dv * 1000 / r) else none
  match it, ir with
  | none, none => (none, 0, b)
  | some a, none => (some a, if at0 then 1 else 2, b)
  | none, some r => (some r, 3, b)
  | some a, some r => if a ≤ r then (some a, if at0 then 1 else 2, b) else (some r, 3, b)

/-! ### The control frame of a battery port (R186 to R189, R196, R198, R209) -/

def minOpt (a : Q) : Option Q → Q
  | some b => min a b
  | none => a

/-- I_TEMP: from T_CHG_HI − 5 °C down to 25 % at T_CHG_HI (R187). -/
def iTemp (s : State) (p : Fin 4) (iProg : Q) (tHi : Q) : Q :=
  let h := tChgHi s p
  if tHi ≤ h - 5 then iProg else max (iProg / 4) (iProg * (1 - 3 / 4 * (tHi - (h - 5)) / 5))

/-- The headroom of R188, mV of the bank or of a cell; for lead-acid the first term alone. -/
def headroom (s : State) (p : Fin 4) (vLim : Q) : Q :=
  let a := nCells s p * vLim - s.bat[p].vBank.mean
  if leadAcid (chem s p) then a else min a (vLim + dvHi s - highCell s p)

/-- The valid NTCs of the port's mask (R182): temperatures in use. -/
def validNtcs (s : State) (p : Fin 4) : List Q :=
  let mask := (param s (0x474 + p.val)).toNat
  (List.range 8).filterMap fun n =>
    if mask.testBit n then
      let x := s.therm.sensors[Fin.ofNat 20 (12 + n)]
      if x.failed || !x.read || x.raw.isNone then none else some x.used
    else none

/-- Full scale of the bank shunt, ±100 mV across R_BANK, in mA (R181). -/
def shuntFs (s : State) (p : Fin 4) : Q :=
  let r : Q := (paramAt s 0x41C p.val : Q) / 1000
  if r = 0 then 0 else 100 * 1000 / r

/-- Means of the frame just ended, whoever runs the port; a switch not rewritten for two frames opens (R225). -/
def closeBat (x : Bat) : Bat :=
  { x with vBank := x.vBank.close, iBank := x.iBank.close, vTaps := x.vTaps.close, seg := vmap x.seg Acc.close,
           quiet := vmap x.quiet Acc.close, iHist := (x.iBank.close.mean :: x.iHist).take 39,
           bleedAge := x.bleedAge + 1, bleedWritten := if 2 ≤ x.bleedAge then 0 else x.bleedWritten }

/-- The counters that the bank shunt's own integrator drives, with no gap: q µAs of the frame, positive in discharge (R10, R181, R209);
the state of charge counts with them. -/
def meterBat (s : State) (p : Fin 4) (q : Q) (x : Bat) : Bat :=
  { x with
    coulomb := x.coulomb + q, energy := x.energy + x.vBank.mean * q / 1000 / 3600,
    chgThru := if q < 0 then x.chgThru - q else x.chgThru, disThru := if 0 < q then x.disThru + q else x.disThru,
    primQuiet := if -(2 / 100 * shuntFs s p) ≤ x.iBank.mean then x.primQuiet + (frameStep s : Q) / 100000000 else 0,
    netSince := x.netSince + q / 1000 / 3600, netDis := x.netDis + q / 1000 / 3600,
    chargedSince := x.chargedSince || decide (q < 0),
    soc := if x.socKnown && cNom s p ≠ 0 then max 0 (min 100 (x.soc - 100 * (q / 1000 / 3600) / cNom s p)) else x.soc }

/-- The frame's temperatures in use (R182), and the times that run on their own (R187, R193, R194, R203, R227, R230). -/
def batMeasure (s : State) (p : Fin 4) (x : Bat) : Bat :=
  let ts := validNtcs s p
  let mean := if ts.isEmpty then x.tMean else sumQ ts / ts.length
  let held := s.chan[chanOfBat p].restHold
  let charging := decide (5 / 100 * (x.iProg * phaseScale s (chanOfBat p)) ≤ -x.iBank.mean) && x.charge = .bulk
  { x with
    tHi := if ts.isEmpty then x.tHi else maxQ ts, tLo := if ts.isEmpty then x.tLo else minQ ts, tMean := mean, ntcOk := !ts.isEmpty,
    coldSince := x.coldSince || decide (mean < 15),
    pauseTime := if x.paused then x.pauseTime + tick256 else 0,
    retryTime := if x.qualRetry then x.retryTime + tick256 else 0,
    pulseTime := if x.charge = .absorption && !x.resting then x.pulseTime + tick256 else 0,
    restTime := if x.resting && held then x.restTime + tick256 else x.restTime,
    fitTime := if x.fitDue then x.fitTime + tick256 else 0,
    probeTime := if x.charge = .bulk && (x.probed || charging) then x.probeTime + tick256 else x.probeTime,
    callTime := if x.called && s.ride.th.vUN < s.ride.frameMin then x.callTime + tick256 else 0 }

/-- Pause and resume of R187; the discharge window with its 3 °C release (R201). -/
def batTemps (p : Fin 4) (s : State) : State :=
  let x := s.bat[p]
  let tv := quant 2 (x.tHi * 10) ++ quant 2 (x.tLo * 10)
  let pause := x.ntcOk && (decide (tChgHi s p < x.tHi) || decide (x.tLo < tChgLo s p))
  let resume := x.ntcOk && decide (x.tHi ≤ tChgHi s p - 3) && decide (tChgLo s p + 3 ≤ x.tLo)
  let cold := x.ntcOk && (decide (tDsgHi s p < x.tHi) || decide (x.tLo < tDsgLo s p))
  let warm := decide (x.tHi ≤ tDsgHi s p - 3) && decide (tDsgLo s p + 3 ≤ x.tLo)
  let s1 := onBat p (fun x => { x with tempStop := cold || (x.tempStop && !(x.ntcOk && warm)) }) s
  let s2 := if x.ntcOk then s1 else faultBit 6 p s1
  if !chargeable (chem s p) || primaryPort s p then s2
  else if !x.paused && pause then pushEvent 0x0409 ([byte p.val] ++ tv) (onBat p (fun x => { x with paused := true }) s2)
  else if x.paused && resume then pushEvent 0x040A ([byte p.val] ++ tv) (onBat p (fun x => { x with paused := false }) s2)
  else s2

/-- R203: a reserve port is called in the frame whose minimum Ride is below V_FL; its own rest is disturbed. -/
def reserveCall (p : Fin 4) (s : State) : State :=
  if chgOption s p 3 && s.ride.frameMin < s.ride.th.vFL && !s.bat[p].called then
    let s1 := onBat p (fun x => { x with called := true, callTime := 0 }) s
    if s1.bat[p].resting then disturbRest p s1 else s1
  else s

/-- I_DIS (R201, R318). -/
def iDisOf (s : State) (p : Fin 4) : Q :=
  let x := s.bat[p]
  if chem s p = 0 || chem s p = 7 || x.cut || x.tempStop || (chgOption s p 3 && !x.called) || tapsUnused s p then 0
  else s.chan[chanOfBat p].theta * iDisMax s p

/-- The limits of a frame (R186 to R188): the clamps written to the channel, and what the telemetry shows of them. -/
def batLimits (p : Fin 4) (s : State) : State :=
  let c := chanOfBat p
  let x := s.bat[p]
  let prog := iProgOf s p x.charge
  let (plat, term, band) := plating s p x
  let theta := s.chan[c].theta
  let noCharge := x.paused || !x.ntcOk || x.charge = .hold
  let lim := min (min prog (theta * prog)) (minOpt (iTemp s p prog x.tHi) plat)
  let (kp, ki) := Config.regGains 20 x.rBank
  let integ := x.vReg.getD lim
  let reg : Option Q := match vLimOf s p x.charge with
    | none => none
    | some v =>
      let y := max 0 (integ + kp * headroom s p v)
      if y < lim then some y else none
  let integ' : Option Q := match reg, vLimOf s p x.charge with
    | some _, some v => some (integ + ki * headroom s p v * tick256)
    | _, _ => x.vReg
  let cmd := if noCharge then 0 else minOpt lim reg
  let dis := iDisOf s p
  let h := s.chan[c]
  let bound := decide (0 < h.fPeriods) && decide (h.fPeriods ≤ 2 * h.fBound)
  let wasPlat := x.platLim
  let nowPlat := term ≠ 0 && 0 < prog && (match plat with | some a => decide (a = lim) && decide (a < prog) | none => false)
  let s1 := onBat p (fun x => { x with
    iProg := prog, iLim := lim, iPlat := plat, platTerm := term, band := some band, platLim := nowPlat, throttled := decide (theta < 1),
    iCmd := cmd, iDis := dis, vReg := integ', regBinds := reg.isSome, regTime := if reg.isSome then x.regTime + 256 / 1000000 else 0,
    clampBinds := bound, supplyLim := !bound }) s
  let s2 := writeClamps c dis cmd s1
  if nowPlat = wasPlat then s2
  else pushEvent (if nowPlat then 0x0507 else 0x0508)
    ([byte p.val, byte (if nowPlat then term else x.platTerm).val] ++ (match plat with | some a => quantU 4 a | none => le 4 0xFFFFFFFF)) s2

/-- Advance r of the safety timer (R198): I_del over the scaled I_PROG; with the regulator binding I_LIM over I_PROG, both scaled alike
by a phase loss, which changes no rate (R186). -/
def timerRate (s : State) (p : Fin 4) : Q :=
  let x := s.bat[p]
  let c := chanOfBat p
  let prog := x.iProg * phaseScale s c
  let stop := !unstopped s.chan[c] || !switching s c
  if x.paused || !x.ntcOk || x.resting || stop || !x.clampBinds || prog = 0 then 0
  else max (1 / 8) (min 1 (if x.regBinds then x.iLim / x.iProg else -x.iBank.mean / prog))

/-- The recharge condition of R196: no sample of the frame reached 1 % of I_BULK in its second test. -/
def recharge (s : State) (p : Fin 4) : Bool :=
  let x := s.bat[p]
  decide (qRc s p ≤ x.netDis) ||
  (decide (x.iBank.peak < iBulk s p / 100) && decide (x.vBank.mean < nCells s p * (vOcvt s p - dvRc s p)))

/-- Equalise starts, but for a port that meanwhile refuses it (R197). -/
def startEqualise (p : Fin 4) (s : State) : State :=
  let s1 := onBat p (fun x => { x with eqDue := false }) s
  if equaliseRefused s p then makeEqualiseDue p s1
  else pushEvent 0x040B [byte p.val, Config.eventCode 0x040B 0] (setCharge p .equalise .condition s1)

/-- R197: t_EQ counts in frames within 1 % of N_s × V_EQ. -/
def atEqualise (s : State) (p : Fin 4) : Bool :=
  let v := nCells s p * vEq s p
  decide ((s.bat[p].vBank.mean - v).abs ≤ v / 100)

/-- The exits of the table "Charge states" that a frame finds. -/
def chargeExits (p : Fin 4) (s : State) : State :=
  let x := s.bat[p]
  let c := x.charge
  if mayQualify c && (!chgOption s p 0 || heldOff s p) then setCharge p .off .option s
  else match c with
  | .off => if chgOption s p 0 && !heldOff s p && !primaryPort s p then enterQual p .option s else s
  | .preCharge =>
    let t := if vPre s p + 100 ≤ lowCell s p then x.preTime + tick256 else 0
    if 10 ≤ t then setCharge p .bulk .condition s else onBat p (fun x => { x with preTime := t }) s
  | .bulk => if 1 ≤ x.regTime then setCharge p .absorption .condition s else s
  | .float =>
    let t := x.floatTime + tick256
    if recharge s p then setCharge p .bulk .condition s
    else if x.eqDue && 3600 ≤ t && x.tHi ≤ tChgHi s p - 10 && x.ntcOk then startEqualise p s
    else onBat p (fun x => { x with floatTime := t }) s
  | .maintenance => if recharge s p then setCharge p .bulk .condition s else s
  | .equalise =>
    let t := if atEqualise s p then x.eqTime + tick256 else x.eqTime
    if (paramAt s 0x45C p.val : Q) * 60 ≤ t then
      onBat p (fun x => { x with eqTb := s.tb }) (setCharge p .float .condition s)
    else onBat p (fun x => { x with eqTime := t }) s
  | _ => s

/-- R210: charger fault bits whose cause persists: a failed qualification that awaits its retry, eight failed fits, primary charge
current, an over-voltage stop, a refused gang (the missing NTC is in `batTemps`). -/
def persistFaults (p : Fin 4) (s : State) : State :=
  let x := s.bat[p]
  let b (k : Nat) (c : Bool) (s : State) : State := if c then faultBit k p s else s
  let prim := primaryWire s p && decide (x.iBank.mean < -(2 / 100 * shuntFs s p))
  b 11 (inRefusedGang s p) (b 9 (x.ovp ≠ .armed) (b 8 prim (b 7 (decide (8 ≤ x.fitFails)) (b 4 x.qualRetry s))))

/-- What earlier frames left due and no row has yet done, each at most once: a frame does not let it pass (log 13). -/
def overdueBat (p : Fin 4) (s : State) : State :=
  let s1 := whenS (s.bat[p].resting && s.chan[chanOfBat p].restHold && decide (restLimit s.bat[p] ≤ s.bat[p].restTime)) (endRest p) s
  let s2 := whenS (s1.bat[p].fitDue && decide (1 / 10 ≤ s1.bat[p].fitTime)) (gladeFit p) s1
  let x := s2.bat[p]
  let s3 := whenS ((timerOf x.charge).isSome && decide (timerLimit s2 p x.charge ≤ x.timer)) (timerEnd p) s2
  let s4 := whenS (pauseOver s3 p && decide (43200 ≤ s3.bat[p].pauseTime)) (enterQual p .pause) s3
  let s5 := whenS (retryDue s4 p && decide (60 ≤ s4.bat[p].retryTime)) (qualAgain p) s4
  let s6 := whenS (equaliseElapsed s5 p) (equaliseFalls p) s5
  let s7 := whenS (reserveQuiet s6 p && decide (10 ≤ s6.bat[p].callTime)) (reserveDone p) s6
  let s8 := whenS (cutDue s7 p && decide (1 ≤ s7.bat[p].cutTime)) (cutOff p) s7
  whenS (restoreDue s8 p && decide (10 ≤ s8.bat[p].rstTime)) (cutOver p) s8

/-- Rests that are due: the pulse's, tested in each frame from its end on (R194 step 2), and the probe's. -/
def restsDue (p : Fin 4) (s : State) : State :=
  let t := (paramAt s 0x448 p.val : Q) / 10
  if pulseOver s p && decide (t ≤ s.bat[p].pulseTime) then startRest p false s
  else if probeDue s p && decide ((if s.bat[p].probed then (param s 0x51C : Q) else 10) ≤ s.bat[p].probeTime) then startRest p true s
  else s

/-- One control frame of the store engine on a port or gang. -/
def batFrame (p : Fin 4) (s : State) : State :=
  if !batActive s p then s
  else
    let s0 := restsDue p (overdueBat p s)
    let s1 := cutTimes p (batQualFrame p (reserveCall p (batTemps p (onBat p (batMeasure s0 p) s0))))
    let s2 := batLimits p (chargeExits p s1)
    let s3 := onBat p (fun x => { x with timer := x.timer + tick256 * timerRate s2 p }) s2
    persistFaults p (onBat p (balanceFrame s3 p) s3)

/-- Warden's frame on a port in hold: the cut-off of R202 from the records of group D (R205). -/
def holdFrame (p : Fin 4) (s : State) : State :=
  if s.bat[p].charge = .hold && gangLow s p = p && batEn s p then
    let s1 := whenS (cutDue s p && decide (1 ≤ s.bat[p].cutTime)) (cutOff p) s
    cutTimes p (whenS (restoreDue s1 p && decide (10 ≤ s1.bat[p].rstTime)) (cutOver p) s1)
  else s

/-- A store engine fails: its ports go to hold, the charge clamp zero, discharge at the last limit (R32, R208). -/
def holdPort (p : Fin 4) (s : State) : State :=
  let s1 := onBat p (fun x => { x with fitDue := false, resting := false, iCmd := 0, charge := .hold, cutTime := 0, rstTime := 0 }) s
  let off (l : Lims) : Lims := { l with neg := 0 }
  let s2 := onChan (chanOfBat p) (fun h => { h with lim := off h.lim, stored := h.stored.map off, restHold := false, restDue := false }) s1
  onChan (chanOfBat p) annDrop s2

end Sys2Proof.Machine
end

