-- ==== Sys2Proof/Machine/Loads.lean ====
section
/-! DEFINITION. The load ports' states, electronic fuse and shedding (chapter 10, R51 to R53, R61). -/

namespace Sys2Proof.Machine
open Sys2Proof

/-- The shed bit of a port's class; a safe-mask port ignores its class (R279). -/
def loadIsShed (s : State) (p : Fin 32) : Bool := !safeMask s p && s.ride.shed.getLsbD s.load[p].cls.val

/-- The five conditions of a port's enable (chapter 10): the C-region, the command, the shed, the Ride and the device
state; ports outside the safe mask only once R61 has released them. -/
def loadEnabled (s : State) (p : Fin 32) : Bool :=
  loadEn s p && s.load[p].commanded && !loadIsShed s p && !s.ride.low && s.clk.vcc &&
  (safeMask s p || (deviceRuns s && s.ride.released))

/-- Soft-start begins: its timer is 1.5 × V_RIDE / S_SS + 10 ms, from the Ride at the entry (R275). -/
def enterSoft (s : State) (l : Load) : Load :=
  { l with state := .softStart, fromOn := false, tb := s.tb, ssMs := 3 / 2 * s.ride.v / 1000 / l.slew + 10 }

/-- The state after its enable is looked at (table "Load port states"): the retry counter is kept. -/
def loadFollow (s : State) (en : Bool) (l : Load) : Load :=
  match l.state with
  | .off => if en then enterSoft s l else l
  | .softStart | .on | .limiting | .retryWait => if en then l else { l with state := .off }
  | .latched => l

/-- The voltage of a current across the port's shunt, mV. -/
def shuntMv (l : Load) (i : Q) : Q := i * l.shunt / 1000

/-- Every port's hardware follows its enable. -/
def loadRefresh (s : State) : State :=
  { s with load := vmapIdx s.load fun p l => loadFollow s (loadEnabled s p) l }

/-! ### Shedding -/

/-- A port that a shed of its class takes off or a restore brings back: its events and counter are of these (log 15). -/
def shedTouches (s : State) (k : Fin 8) (p : Fin 32) : Bool :=
  loadEn s p && s.load[p].commanded && !safeMask s p && decide (s.load[p].cls = k)

def countShed (k : Fin 8) (p : Fin 32) (s : State) : State :=
  let hit := s.load[p].cShed.hits
  satEvent 0x0706 p.val 4 4 hit
    (pushEvent 0x0704 [byte p.val, byte k.val] (onLoad p (fun l => { l with cShed := l.cShed.bump }) s))

/-- A USB source port of the class stops sourcing; Anvil answers in its next policy frame (R51, R260). -/
def shedUsb (k : Fin 8) (p : Fin 4) (s : State) : State :=
  if s.usb[p].source && s.usb[p].tc = .attSrc && s.usb[p].cls = k then
    stopChan (chanOfUsb p) (onUsb p (fun u => { u with shed := true }) s)
  else s

def shedClass (k : Fin 8) (s : State) : State :=
  let s1 := { s with ride := { s.ride with shed := putBit s.ride.shed k.val true } }
  let s2 := each (List.finRange 4) (shedUsb k) (loadRefresh s1)
  each ((List.finRange 32).filter (shedTouches s k)) (countShed k) s2

/-- R51: the Ride is below V_SHED of the class. A class already restored is shed again by it like any other, also while other classes
wait for their restore: R53 says that the classes already restored stay on where the Ride falls below another's threshold, and leaves
open a fall below their own (log 118). -/
def execLoadShed (cls : Fin 8) (s : State) : Host.Outcome State Fault Refusal :=
  .next (whenS (s.clk.vcc && !s.ride.shed.getLsbD cls.val) (shedClass cls) s)

/-- No class below k is shed: restores go lowest class first (R53). -/
def lowestShed (s : State) (k : Fin 8) : Bool :=
  s.ride.shed.getLsbD k.val && (List.range k.val).all fun j => !s.ride.shed.getLsbD j

def restoreClass (k : Fin 8) (s : State) : State :=
  let s1 := loadRefresh { s with ride := { s.ride with shed := putBit s.ride.shed k.val false } }
  each ((List.finRange 32).filter (shedTouches s k)) (fun p => pushEvent 0x0705 [byte p.val, byte k.val]) s1

def execShedRestore (cls : Fin 8) (s : State) : Host.Outcome State Fault Refusal :=
  .next (whenS (lowestShed s cls) (restoreClass cls) s)

/-- R61: the present target reaches V_T, and the other load ports are released. -/
def targetReached (s : State) : State :=
  let s1 := setPresent (finalTarget s) s
  loadRefresh { s1 with ride := { s1.ride with target := finalTarget s, released := true } }

def execTargetReached (s : State) : Host.Outcome State Fault Refusal :=
  .next (whenS (s.mbox.ready && deviceRuns s) targetReached s)

/-! ### States and fuse -/

/-- V_OUT has reached V_RIDE − 0.3 V (R275). -/
def execLoadSoftStartComplete (port : Fin 32) (vOut : Q) (s : State) : Host.Outcome State Fault Refusal :=
  .next (if s.load[port].state = .softStart && decide (s.ride.v - 300 ≤ vOut) then onLoad port (fun l => { l with state := .on, tb := s.tb }) s
    else s)

/-- The current reaches the limit in Soft-start or On (R275, R277). -/
def execLoadLimitingEntry (port : Fin 32) (i : Q) (s : State) : Host.Outcome State Fault Refusal :=
  let l := s.load[port]
  .next (if (l.state = .softStart || l.state = .on) && decide (l.limMv ≤ shuntMv l i) then
      onLoad port (fun l => { l with fromOn := l.state = .on, state := .limiting, tb := s.tb }) s
    else s)

/-- The current has fallen below 0.9 × I_LIM: the state it came from (R275). -/
def execLoadLimitingExit (port : Fin 32) (i : Q) (s : State) : Host.Outcome State Fault Refusal :=
  let l := s.load[port]
  .next (if l.state = .limiting && decide (shuntMv l i < 9 / 10 * l.limMv) then
      onLoad port (fun l => { l with state := if l.fromOn then .on else .softStart, tb := s.tb }) s
    else s)

def loadCauseCode : LoadCause → Nat
  | .limit => 0 | .softStart => 1 | .fastTrip => 2

def countLoadFault (c : LoadCause) (l : Load) : Load :=
  match c with
  | .limit => { l with cLimit := l.cLimit.bump }
  | .softStart => { l with cSoft := l.cSoft.bump }
  | .fastTrip => { l with cFast := l.cFast.bump }

def loadFaultHits (c : LoadCause) (l : Load) : Bool :=
  match c with
  | .limit => l.cLimit.hits | .softStart => l.cSoft.hits | .fastTrip => l.cFast.hits

def loadCounterNo : LoadCause → Nat
  | .fastTrip => 0 | .limit => 1 | .softStart => 2

/-- The retry count reached: the fault latches the port (R278). -/
def loadLatches (s : State) (p : Fin 32) : Bool := decide (s.load[p].retCnt ≤ s.load[p].retry)

/-- R278: the fault counted, then Retry-wait or Latched; reported to fault collection, with its events. -/
def loadFault (p : Fin 32) (c : LoadCause) (peak : Q) (s : State) : State :=
  let latch := loadLatches s p
  let retry := min 255 (s.load[p].retry + 1)
  let s1 := onLoad p (fun l => { countLoadFault c l with
    retry := retry, state := if latch then .latched else .retryWait, tb := s.tb,
    cLatch := if latch then l.cLatch.bump else l.cLatch }) s
  let s2 := reportUnit 0x28 4 p.val (loadCauseCode c) (rnd peak) s1
  let s3 := pushEvent 0x0701 ([byte p.val, byte (loadCauseCode c)] ++ quant 4 peak ++ le 2 retry) s2
  let s4 := satEvent 0x0706 p.val 4 (loadCounterNo c) (loadFaultHits c s.load[p]) s3
  if latch then satEvent 0x0706 p.val 4 3 s.load[p].cLatch.hits (pushEvent 0x0702 [byte p.val] s4) else s4

/-- The soft-start timer set at the entry has run out (R278). -/
def execLoadSoftStartTimeout (port : Fin 32) (peak : Q) (s : State) : Host.Outcome State Fault Refusal :=
  .next (if s.load[port].state = .softStart && passed s s.load[port].tb s.load[port].ssMs then loadFault port .softStart peak s else s)

/-- t_FLT has run out in Limiting (R278). -/
def execLoadFaultTimerExpiry (port : Fin 32) (peak : Q) (s : State) : Host.Outcome State Fault Refusal :=
  .next (if s.load[port].state = .limiting && passed s s.load[port].tb s.load[port].tFlt then loadFault port .limit peak s else s)

/-- A fast trip: the shunt voltage beyond twice the limit's, wherever the gate is driven: Soft-start, On and Limiting (R278). -/
def execLoadFastTrip (port : Fin 32) (peak : Q) (s : State) : Host.Outcome State Fault Refusal :=
  let l := s.load[port]
  .next (if (l.state = .softStart || l.state = .on || l.state = .limiting) && decide (2 * l.limMv < shuntMv l peak) then
      loadFault port .fastTrip peak s
    else s)

def execLoadRetryOffTimeEnd (port : Fin 32) (s : State) : Host.Outcome State Fault Refusal :=
  .next (if s.load[port].state = .retryWait && passed s s.load[port].tb s.load[port].retOff then
      onLoad port (fun l => if loadEnabled s port then enterSoft s l else { l with state := .off, fromOn := false }) s
    else s)

def execLoadRetryResetInterval (port : Fin 32) (s : State) : Host.Outcome State Fault Refusal :=
  .next (if s.load[port].state = .on && passed s s.load[port].tb (1000 * s.load[port].retReset) then
      onLoad port (fun l => { l with retry := 0 }) s
    else s)

/-- R271: below 4.5 V every gate is off; above 5.0 V they are released. -/
def execRideBelowLoadMinimum (v : Q) (s : State) : Host.Outcome State Fault Refusal :=
  .next (if v < 4500 then loadRefresh { s with ride := { s.ride with low := true } } else s)

def execRideAboveLoadRelease (v : Q) (s : State) : Host.Outcome State Fault Refusal :=
  .next (if 5000 < v then loadRefresh { s with ride := { s.ride with low := false } } else s)

/-- A latch cleared (R278, R443): Off with the retry counter at zero; it soft-starts if it is enabled. -/
def clearLoadLatch (p : Fin 32) (s : State) : State :=
  if s.load[p].state = .latched then
    let s1 := onLoad p (fun l => { l with state := .off, retry := 0 }) s
    let s2 := onLoad p (fun l => loadFollow s1 (loadEnabled s1 p) l) s1
    pushEvent 0x0703 [byte p.val] s2
  else s

end Sys2Proof.Machine
end

