-- ==== Sys2Proof/Machine/Reactions.lean ====
section
/-! DEFINITION. Warden: the standing list, the classes and reactions of faults, Device-stop, engine failure and restart,
Anvil restarts, and the clears (chapter 19, R31 to R34, R306, R313, R332, R450). -/

namespace Sys2Proof.Machine
open Sys2Proof

/-! ### Counts over 24 h -/

def within (span : Nat) (now : TB) (l : List TB) : List TB := l.filter fun t => decide (now.toNat < t.toNat + span)

/-- Anvil restarts of the last 24 h (R33). -/
def recentRestarts (s : State) : List TB := within day s.tb s.warden.restarts

/-! ### Engines on the rings (R332) -/

def engMaster (e : Fin 12) : BitVec 4 := BitVec.ofNat 4 e.val

/-- The rings an engine consumes, other than the PHYs' Q15. -/
def engRings (e : Fin 12) : List (Fin 16) :=
  (List.finRange 16).filter fun q => q ≠ 15 && (ringConsumers q).contains (engMaster e)

/-- The rings of several consumers, whose membership R332 changes. -/
def sharedRing (q : Fin 16) : Bool := (4 ≤ q.val && q.val ≤ 7) || q = 10 || q = 12

def joinRings (e : Fin 12) (s : State) : State :=
  each (engRings e) (fun q s => putRing q (subscribe (engMaster e) s.ring[q]) s) s

/-- Anvil's stalled entries for a failed engine are discarded (R343). -/
def dropStalled (q : Fin 16) (m : BitVec 4) (r : Ring) : Ring :=
  if q = 10 || q = 12 then { r with stalled := r.stalled.filter fun bs => Config.entryDest bs ≠ m } else r

def leaveRings (e : Fin 12) (s : State) : State :=
  each (engRings e) (fun q s => unstall q (putRing q (unsubscribe (engMaster e) (dropStalled q (engMaster e) s.ring[q])) s)) s

/-! ### Classes (R492) -/

def clsRank : Cls → Nat
  | .note => 0 | .degrade => 1 | .portStop => 2 | .deviceStop => 3
def clsMax (a b : Cls) : Cls := if clsRank a < clsRank b then b else a

/-- On-die sensors that are valid. -/
def validDie (s : State) : Nat := ((List.finRange 20).filter fun i => decide (i.val < 12) && !s.therm.sensors[i].failed).length

/-- A double-bit error of an engine RAM, or a fetch outside the ranges, spoils the engine (R326, R27). -/
def spoilsEngine (r : Report) : Bool :=
  r.unitKind = 7 && (r.checker = 0x02 || r.checker = 0x09 || (r.checker = 0x07 && r.access = .fetch))

def idx12 (r : Report) : Fin 12 := Fin.ofNat 12 r.unitIdx.toNat
def idx16 (r : Report) : Fin 16 := Fin.ofNat 16 r.unitIdx.toNat
def idx20 (r : Report) : Fin 20 := Fin.ofNat 20 r.unitIdx.toNat
def idx28 (r : Report) : Fin 28 := Fin.ofNat 28 r.unitIdx.toNat
def idx32 (r : Report) : Fin 32 := Fin.ofNat 32 r.unitIdx.toNat
def idx4 (r : Report) : Fin 4 := Fin.ofNat 4 r.unitIdx.toNat

/-- A report that restarts Anvil: its watchdog, a double-bit error of its RAM, a fetch it may not make. -/
def restartsAnvil (r : Report) : Bool := r.checker = 0x0A || (spoilsEngine r && r.unitIdx = 0)

/-- The class of a report in the state its hardware reaction left; none raises no fault. -/
def classOf (s : State) (r : Report) : Option Cls :=
  if restartsAnvil r then some (if 4 ≤ (recentRestarts s).length then .deviceStop else .note)
  else if spoilsEngine r then some (if r.unitIdx = 1 then .deviceStop else .degrade)
  else match r.checker.toNat with
    | 0x01 | 0x02 | 0x03 | 0x04 | 0x05 | 0x06 | 0x07 | 0x0C | 0x12 | 0x13 | 0x14 | 0x15 | 0x16 | 0x17 | 0x18 | 0x19 | 0x1A
    | 0x23 | 0x3C | 0x3D => some .note
    | 0x09 => some .degrade
    | 0x0B => some .deviceStop
    | 0x10 => some (if r.unitKind = 6 && nHealthy s (chanOfPhase (idx28 r)) = 0 then .portStop else .degrade)
    | 0x11 => some (if r.unitKind = 5 && s.chan[idx16 r].hic = .latched then .portStop else .note)
    | 0x20 | 0x21 | 0x22 | 0x24 => some .portStop
    | 0x28 => some (if r.unitKind = 4 && s.load[idx32 r].state = .latched then .portStop else .note)
    | 0x30 | 0x31 => some .degrade
    | 0x32 => some (if r.unitIdx = 0 || r.unitIdx = 1 then .portStop else if r.unitIdx = 2 then .degrade else .deviceStop)
    | 0x38 => some (if validDie s < 6 then .deviceStop else .degrade)
    | 0x39 => some (if 3 ≤ s.therm.counted.length then .deviceStop else .note)
    | _ => none

/-! ### Causes and clearing (R492, R494) -/

/-- First byte offset of an OTP region, by the region code of event 0x0B05. -/
def regionBase (code : Nat) : Nat :=
  match code with
  | 0 => 0 | 1 => 0x800 | 2 => 0x900 | 3 => 0xB00 | 4 => 0xD00 | _ => 0x7D00

/-- A thermal shutdown stands (R319): a comparator's stop or Warden's. -/
def shutdownStands (s : State) : Bool := s.therm.comp ≠ 0 || s.therm.warden

/-- The cause of a standing fault is present (table "Checkers"). -/
def causePresent (s : State) (f : FaultRec) : Bool :=
  let r := f.rep
  match r.checker.toNat with
  | 0x04 => s.otp.marginal.contains (regionBase r.cause.toNat + r.value.toNat)
  | 0x0B => true
  | 0x11 => s.chan[idx16 r].hic = .off && !s.chan[idx16 r].offByCmd
  | 0x12 => s.ride.ovStop
  | 0x13 => s.tap.state = .tripped
  | 0x14 => s.src[(Fin.ofNat 8 r.unitIdx.toNat : Fin 8)].ovStop
  | 0x15 => s.usb[idx4 r].tc = .errorRecovery || s.usb[idx4 r].held60
  | 0x16 => s.usb[idx4 r].vconnBad
  | 0x17 => s.clk.vdrvLow
  | 0x18 => s.phase[idx28 r].notReached ≠ 0
  | 0x20 => s.bat[idx4 r].ovp = .stopped || s.bat[idx4 r].ovp = .resetOnly
  | 0x21 => s.bat[idx4 r].tapStop
  | 0x22 => decide (s.bat[idx4 r].primQuiet < 1)
  | 0x23 => s.bat[idx4 r].charge = .dormant
  | 0x24 => (List.finRange 8).any fun n =>
      s.chan[chanOfBat (idx4 r)].stops.contains (.ntc n) && s.therm.sensors[(Fin.ofNat 20 (12 + n.val) : Fin 20)].shutdown
  | 0x28 => s.load[idx32 r].state = .retryWait
  | 0x32 => s.group[idx4 r].lost
  | 0x39 => shutdownStands s
  | 0x3C => s.clk.crystalLost
  | 0x3D => s.sbus.stuck
  | _ => false

/-- R494: by a command; a tap fault is closed by Anvil alone (R450). -/
def clearable (s : State) (f : FaultRec) : Bool :=
  !causePresent s f && !f.resetOnly && !f.readmit && f.cls ≠ .deviceStop && f.rep.checker ≠ 0x21

/-! ### The standing list and Q9 (R493, R496) -/

def findFault (s : State) (checker kind idx : Byte) : Option FaultRec :=
  s.warden.standing.find? fun f => f.rep.checker = checker && f.rep.unitKind = kind && f.rep.unitIdx = idx

/-- A standing fault replaced by its changed self. -/
def setFault (f : FaultRec) (s : State) : State :=
  { s with warden := { s.warden with standing := s.warden.standing.map fun g => if g.id = f.id then f else g } }

def succId (i : Half) : Half := if 0xFFFE ≤ i then 1 else i + 1

/-- The next ID that does not stand: ascending, wrapping, 0xFFFF never issued. -/
def freeId (used : List Half) : Nat → Half → Half
  | 0, i => i
  | n + 1, i => if used.contains i then freeId used n (succId i) else i

def clsCode (c : Cls) : Byte := byte (clsRank c)

/-- Bytes 0 to 7 and 16 to 19 of a report. -/
def reportBody (tb : TB) (r : Report) : List Byte := (reportBytes tb r).take 8 ++ le16 r.cause ++ [0, 0]

/-- A Warden reaction of 32 bytes pushed to Q9. -/
def pushReaction (kind : Byte) (cls : Byte) (id : Half) (body : List Byte) (tb : TB) (tail : List Byte) (s : State) : State :=
  pushRing 9 ([kind, cls] ++ le16 id ++ pad 12 body ++ le64 tb ++ pad 8 tail) s

def faultReaction (kind : Byte) (f : FaultRec) (r : Report) (tb : TB) (tail : List Byte) (s : State) : State :=
  pushReaction kind (clsCode f.cls) f.id (reportBody tb r) tb tail s

/-- An occurrence of a standing fault: counted, a running re-admission ended, its class raised where the occurrence brings more. -/
def updateFault (f : FaultRec) (r : Report) (tb : TB) (cls : Cls) (ro : Bool) (s : State) : State :=
  let up := decide (clsRank f.cls < clsRank cls) || (ro && !f.resetOnly)
  let g := { f with occ := if f.occ = 255 then 255 else f.occ + 1, injected := f.injected || r.injected, readmit := false,
                    oldCls := if up then f.cls else f.oldCls, cls := clsMax f.cls cls, resetOnly := f.resetOnly || ro }
  faultReaction (if up then 2 else 1) g r tb [] (setFault g s)

/-- The Note fault that a full list gives up: the oldest whose cause is gone, or for a higher class the oldest. -/
def victimOf (s : State) (cls : Cls) : Option FaultRec :=
  let notes := s.warden.standing.filter fun f => f.cls = .note
  (notes.find? fun f => !causePresent s f).orElse fun _ => if cls = .note then none else notes.head?

/-- A new standing fault with its ID; it ends standby (R341). -/
def addFault (r : Report) (tb : TB) (cls : Cls) (ro : Bool) (s : State) : State :=
  let id := freeId (s.warden.standing.map (·.id)) 513 s.warden.nextId
  let f : FaultRec := { id := id, cls := cls, oldCls := cls, rep := r, tb := tb, injected := r.injected, resetOnly := ro }
  wantRunning 4 (faultReaction 0 f r tb []
    { s with warden := { s.warden with standing := s.warden.standing ++ [f], nextId := succId id } })

/-- A Note fault that finds no place: not recorded, the list-full reaction once until space returns. -/
def missFault (tb : TB) (s : State) : State :=
  let n := if s.warden.unrecorded = 0xFFFF then 0xFFFF else s.warden.unrecorded + 1
  let s1 := { s with warden := { s.warden with unrecorded := n, listFull := true } }
  if s.warden.listFull then s1 else pushReaction 6 0 0 [] tb [] s1

def listMax : Nat := 512

/-- The list's part of a fault (R493). -/
def recordFault (r : Report) (tb : TB) (cls : Cls) (ro : Bool) (s : State) : State :=
  match findFault s r.checker r.unitKind r.unitIdx with
  | some f => updateFault f r tb cls ro s
  | none =>
    if s.warden.standing.length < listMax then addFault r tb cls ro s
    else match victimOf s cls with
      | some v =>
        addFault r tb cls ro { s with warden := { s.warden with standing := s.warden.standing.filter fun g => g.id ≠ v.id } }
      | none => missFault tb s

/-- A standing fault closed: 0 by command, 1 by Anvil, 2 by Warden. -/
def closeFault (f : FaultRec) (src : Nat) (s : State) : State :=
  let l := s.warden.standing.filter fun g => g.id ≠ f.id
  faultReaction 3 f f.rep s.tb [byte src] { s with warden := { s.warden with standing := l, listFull := false } }

/-- Every standing fault of a checker and unit closed. -/
def closeFor (checker kind idx : Byte) (src : Nat) (s : State) : State :=
  match findFault s checker kind idx with
  | some f => closeFault f src s
  | none => s

/-! ### Device-stop (R498) -/

/-- Steps 1 to 5; the event follows through Q9, or from Anvil where Warden has stopped. -/
def stopDevice (s : State) : State :=
  if s.dev = .deviceStop then s
  else
    let s1 := each (List.finRange 16) (fun c s => stopGang .deviceStop c (haltChan c s)) s
    let s2 := loadRefresh { s1 with dev := .deviceStop, clk := { s1.clk with vdrvOk := false },
                                    stby := {}, warden := { s1.warden with restartDue := [] } }
    let s3 := each (List.finRange 4) usbDisable s2
    let s4 := each ((List.finRange 12).filter fun e => 2 ≤ e.val)
      (fun e s => leaveRings e (onEng e (fun x => { x with running := false, retained := false, verify := false }) s)) s3
    setCause 5 s4

/-- The Device-stop reaction, once (R496 kind 4). -/
def tellDeviceStop (r : Report) (tb : TB) (s : State) : State :=
  if s.warden.devStopRep.isSome then s
  else pushReaction 4 3 0 (reportBody tb r) tb [] { s with warden := { s.warden with devStopRep := some r } }

/-! ### Engine failure and restart (R31, R32, R500) -/

/-- A source engine's port: delivering, it is withdrawn; then Absent, and what its RAM held is lost at the restart. -/
def loseSource (p : Fin 8) (s : State) : State :=
  if srcWithdrawable s p then withdrawSrc p s
  else onSrc p (fun x => { x with path := if x.handover then .withdrawing else .absent, present := false, sweeping := false,
                                  track := .none }) (haltChan (chanOfSrc p) s)

/-- What the loss of a unit does to its ports (table "Degraded operation"). -/
def losePorts (e : Fin 12) (s : State) : State :=
  if e.val < 2 then s
  else if e.val < 10 then
    let s1 := loseSource (fin8 (e.val - 2)) s
    if e.val < 6 then usbDisable (fin4 (e.val - 2)) s1 else s1
  else each ((List.finRange 4).filter fun p => batEngine s p = e && gangLow s p = p) holdPort s

/-- An engine of 2 to 11 is stopped and isolated; its restart is due after 1 s unless it is the fourth failure in 24 h. -/
def declareFailed (e : Fin 12) (s : State) : State :=
  if e.val < 2 then s
  else
    let fails := s.tb :: within day s.tb s.eng[e].fails
    let last := decide (4 ≤ fails.length)
    let s1 := onEng e (fun x => { x with
      running := false, failed := true, halted := false, frames := 0, missed := 0, due := [], verify := false, fails := fails }) s
    let due := s.warden.restartDue.filter (· ≠ e)
    losePorts e (leaveRings e { s1 with warden := { s1.warden with
      restartDue := if last || s.dev = .deviceStop then due else due ++ [e] } })

/-- Nothing of its engine's RAM survives a restart (R325), the counters it keeps among it (R554). What hardware, Warden and Anvil hold
stays: a source port's over-voltage stop; a battery port's cell stops and tap tests, the accepted count and the refused gang, and in
Anvil's RAM the time of the last equalise and both states of health (R197, R232, R233). -/
def freshSrc (x : Src) : Src := { ovStop := x.ovStop }
def freshBat (x : Bat) : Bat :=
  { charge := x.charge, ovp := x.ovp, ovpMask := x.ovpMask, ovpTrips := x.ovpTrips, ovpTb := x.ovpTb, openMask := x.openMask,
    tapStop := x.tapStop, tapPasses := x.tapPasses, primQuiet := x.primQuiet, accepted := x.accepted, gangRefused := x.gangRefused,
    eqTb := x.eqTb, sohR := x.sohR, rLearn := x.rLearn, sohVals := x.sohVals, sohC := x.sohC }

def freshPorts (e : Fin 12) (s : State) : State :=
  if e.val < 2 then s
  else if e.val < 10 then onSrc (fin8 (e.val - 2)) freshSrc s
  else each ((List.finRange 4).filter fun p => (if p.val < 2 then 10 else 11) = e.val) (fun p => onBat p freshBat) s

/-- The ports of a released engine begin: a store engine's in Qualification or Dormant, a source from Absent (R208, R500). -/
def beginPorts (e : Fin 12) (w : Why) (s : State) : State :=
  if e.val < 10 then s
  else each ((List.finRange 4).filter fun p => batEn s p && batEngine s p = e && gangLow s p = p) (fun p => startCharge p w) s

/-- The engine's Degrade faults, marked in re-admission. -/
def engineFaults (s : State) (e : Fin 12) : List FaultRec :=
  s.warden.standing.filter fun f => spoilsEngine f.rep && f.rep.unitIdx = byte e.val && f.cls = .degrade

/-- The ring on which Anvil passes changes to an engine. -/
def passRing (e : Fin 12) : Fin 16 := if e.val < 10 then 10 else 12

/-- A key's value passed to an engine on Q10 or Q12 (R19; log 110). -/
def sendKey (e : Fin 12) (k : Half) (s : State) : State :=
  pushRing (passRing e) (Config.passEntry (engMaster e) k (param s k.toNat)) s

/-- An engine reloaded and released; it is sent what Anvil could not pass meanwhile, and 64 frames verify it (R457, R500). -/
def restartEngine (e : Fin 12) (s : State) : State :=
  let s1 := onEng e (fun x => { x with
    running := true, failed := false, retained := false, halted := false, frames := 0, missed := 0, repSeq := 0,
    verify := true }) (freshPorts e s)
  let s2 := { s1 with warden := { s1.warden with restartDue := s1.warden.restartDue.filter (· ≠ e) } }
  let s3 := joinRings e (each (engineFaults s2 e) (fun f => setFault { f with readmit := true }) s2)
  beginPorts e .engine (each s3.eng[e].due (sendKey e) s3)

/-! ### Anvil restarts (R33, R332) -/

/-- A ring of Q0 to Q3 emptied, its indices at 0; the rest of its control block stays. -/
def emptyRing (r : Ring) : Ring :=
  { r with p := 0, cons := r.cons.map fun c => (c.1, 0), entries := [], checked := [], stalled := [] }

/-- Anvil goes down for a restart: the mailbox closes, its rings empty, ANVIL_RST becomes pending (R383), and the boot
window of the read locks opens (R467). -/
def anvilDown (s : State) : State :=
  let s1 := each [0, 1, 2, 3] (fun q s => putRing q (emptyRing s.ring[q]) s) s
  let m := { s1.mbox with ready := false, restarted := true, restartDue := false, long := [], q0By := [], evLost := 0 }
  setCause 6 { s1 with host := { s1.host with irqDue := false, alertDue := false }, mbox := m,
                       otp := { s1.otp with window := true } }

/-- A watchdog restart: counted, and done unless it is the fourth in 24 h, which is Device-stop in its place (R33). -/
def watchdogRestart (s : State) : State :=
  let l := s.tb :: recentRestarts s
  let s1 := { s with warden := { s.warden with restarts := l } }
  if 4 ≤ l.length then s1 else anvilDown s1

/-! ### Assay and sensors lost (R303 to R306, R312, R313) -/

def convGroup (c : Fin 16) : Fin 4 := fin4 (c.val / 4)
def groupConvs (g : Fin 4) : List (Fin 16) := (List.range 4).map fun i => fin16 (4 * g.val + i)
def healthyConvs (s : State) (g : Fin 4) : List (Fin 16) := (groupConvs g).filter fun c => s.conv[c].healthy

/-- A temperature sensor drops out: its comparator is disabled, its restoration ended (R313). -/
def dropSensor (i : Fin 20) (kind : Fin 4) (s : State) : State :=
  let was := s.therm.sensors[i].failed
  let s1 := onSensor i (fun x => { x with failed := true, failKind := kind, restoring := false }) s
  let off (t : Therm) : Therm := { t with compOff := putBit t.compOff i.val true, comp := putBit t.comp i.val false }
  let s2 := if i.val < 12 then { s1 with therm := off s1.therm } else s1
  if was then s2 else { s2 with therm := { s2.therm with failCnt := s2.therm.failCnt.bump } }

def dropConv (c : Fin 16) (s : State) : State :=
  onConv c (fun x => { x with healthy := false, readmit := false, fails := 0, parity := [] }) s

def dropInput (code : Nat) (s : State) : State :=
  let b := code % 48
  onGroup (fin4 (code / 48)) (fun g => { g with failedIn := putBit g.failedIn b true, readmitIn := putBit g.readmitIn b false }) s

/-- Stops that Warden applies for a lost group: A every source port, B every USB port, C hold, D Device-stop (R306). -/
def loseGroup (g : Fin 4) (s : State) : State :=
  let s1 := onGroup g (fun x => { x with lost := true }) s
  match g.val with
  | 0 => each (List.finRange 8) (fun p s => assertStop .wardenPort (chanOfSrc p) (loseSource p s)) s1
  | 1 => each (List.finRange 4) (fun p s => usbDisable p (assertStop .wardenPort (chanOfUsb p) s)) s1
  | 2 => each ((List.finRange 4).filter fun p => batEn s p && gangLow s p = p) holdPort s1
  | _ => each (List.finRange 20) (fun i => dropSensor i 3) s1

/-- Stops of a lost group removed when a converter of it returns (R306, R492). -/
def regainGroup (g : Fin 4) (s : State) : State :=
  let s1 := onGroup g (fun x => { x with lost := false }) s
  match g.val with
  | 0 => each (List.finRange 8) (fun p => releaseStop .wardenPort (chanOfSrc p)) s1
  | 1 => each (List.finRange 4) (fun p => releaseStop .wardenPort (chanOfUsb p)) s1
  | 2 => each ((List.finRange 4).filter fun p => batEn s p && gangLow s p = p && engineUp s (batEngine s p)) (fun p => startCharge p .engine) s1
  | _ => s1

/-! ### A report and its reaction (R495) -/

/-- Warden's action in hardware, before the class is known to all. -/
def actOn (r : Report) (s : State) : State :=
  if restartsAnvil r then watchdogRestart s
  else if spoilsEngine r then declareFailed (idx12 r) s
  else match r.checker.toNat with
    | 0x30 => dropConv (idx16 r) s
    | 0x31 => dropInput r.unitIdx.toNat s
    | 0x32 => loseGroup (idx4 r) s
    | 0x38 => dropSensor (idx20 r) (Fin.ofNat 4 r.cause.toNat) s
    | _ => s

/-- A third cell over-voltage trip in 24 h (R221). -/
def isResetOnly (s : State) (r : Report) : Bool := r.checker = 0x20 && s.bat[idx4 r].ovp = .resetOnly

/-- One report classified, reacted to in hardware, listed, and told on Q9. -/
def reactOne (r : Report) (tb : TB) (s : State) : State :=
  let s1 := actOn r s
  match classOf s1 r with
  | none => s1
  | some cls =>
    let s2 := if cls = .deviceStop then stopDevice s1 else s1
    let s3 := recordFault r tb cls (isResetOnly s2 r) s2
    if cls = .deviceStop then tellDeviceStop r tb s3 else s3

/-- A finding of Warden's own, entered directly into its list (R488). -/
def finding (checker : Byte) (kind idx cause : Nat) (value : Int) (s : State) : State :=
  if s.warden.alive then
    reactOne { checker := checker, unitKind := byte kind, unitIdx := byte idx, cause := BitVec.ofNat 16 cause,
               value := BitVec.ofInt 32 value } s.tb s
  else s

/-- A converter declared failed: its fault, and its group's when none is left (R303, R306). -/
def convFailed (c : Fin 16) (s : State) : State :=
  let g := convGroup c
  let s1 := finding 0x30 8 c.val 0 0 (dropConv c s)
  if (healthyConvs s1 g).isEmpty && !s1.group[g].lost then finding 0x32 9 g.val 0 0 s1 else s1

/-- Four parity mismatches of a converter within 1 s declare it failed (R305). -/
def parityCount (c : Fin 16) (tb : TB) (s : State) : State :=
  let l := tb :: within 100000000 tb s.conv[c].parity
  let s1 := onConv c (fun x => { x with parity := l }) s
  if 4 ≤ l.length && s.conv[c].healthy then convFailed c s1 else s1

/-- Warden takes a report: reaction, and the parity count of a converter. -/
def react (r : Report) (tb : TB) (s : State) : State :=
  let s1 := reactOne r tb s
  if r.checker = 0x06 && r.unitKind = 8 then parityCount (idx16 r) tb s1 else s1

/-! ### Standby windows (R339, R341) -/

/-- An engine in retention is left out of its shared rings (R332); Warden's index on Q8 stays (R341). -/
def retainEngine (e : Fin 12) (s : State) : State :=
  each ((engRings e).filter sharedRing) (fun q s => unstall q (putRing q (unsubscribe (engMaster e) s.ring[q]) s))
    (onEng e (fun x => { x with retained := true }) s)

/-- It resumes at P of those rings. -/
def resumeEngine (e : Fin 12) (s : State) : State :=
  each ((engRings e).filter sharedRing) (fun q s => putRing q (subscribe (engMaster e) s.ring[q]) s)
    (onEng e (fun x => { x with retained := false }) s)

def resumeEngines (s : State) : State := each ((List.finRange 12).filter fun e => s.eng[e].retained) resumeEngine s

/-- A wake window of eight control frames opens (R339); Warden's watchdog counts from here (R340). -/
def openWindow (s : State) : State :=
  if s.dev = .standby && s.stby.window.isNone then
    resumeEngines { s with stby := { s.stby with window := some 8, winTb := s.tb }, clk := { s.clk with pll := true },
                           warden := { s.warden with fedTb := s.tb } }
  else s

/-- Warden runs: released, not stopped, and in standby inside a window. -/
def wardenRuns (s : State) : Bool := s.warden.alive && !s.eng[(1 : Fin 12)].halted && !deepStandby s

/-- An entry popped by an internal consumer: none where the ring CRC or an injection spoils it (R331). -/
def takeEntry (q : Fin 16) (m : BitVec 4) (s : State) : Option (List Byte) × State :=
  match headEntry q m s with
  | none => (none, s)
  | some e =>
    let inj := (injected 0x03 s).1
    (if e.crcOk && !inj then some e.bytes else none, popRing q m true s)

/-- A report is there for Warden: the capture, or a report at the head of Q8. -/
def reportWaits (s : State) : Bool :=
  s.fc.capture.isSome || (match headEntry 8 1 s with | some e => byteAt e.bytes 0 ≠ 0 | none => false)

/-- R495: the capture first, then Q8; in standby a report opens a window at once (R341). -/
def takeReport (s : State) : State :=
  match s.fc.capture with
  | some r => react r s.fc.feTb { s with fc := { s.fc with capture := none } }
  | none =>
    match takeEntry 8 1 s with
    | (some bs, s1) => react (reportOf bs) (reportTb bs) s1
    | (none, s1) => s1

def execWardenTakeReport (s : State) : Host.Outcome State Fault Refusal :=
  .next (if reportWaits s && s.warden.alive then takeReport (openWindow s) else s)

/-- R553: a configuration record at the head of Q8; the value acts from this write. -/
def execConfigRecordTake (s : State) : Host.Outcome State Fault Refusal :=
  .next (match headEntry 8 1 s with
    | some e =>
      if byteAt e.bytes 0 = 0 && wardenRuns s then
        match takeEntry 8 1 s with
        | (some bs, s1) =>
          let k : Half := BitVec.ofNat 16 (ofLe (slice bs 16 2))
          tapUvWritten { s1 with warden := { s1.warden with keys := putKey k (ofLeS (slice bs 20 4)) s1.warden.keys } }
        | (none, s1) => s1
      else s
    | none => s)

/-- R488: a hardware checker's report. -/
def execFaultReport (r : Report) (s : State) : Host.Outcome State Fault Refusal :=
  .next (if s.clk.vcc then report r s else s)

/-! ### Engine and watchdog events -/

/-- R31: eight frames missed in succession, as Warden counts them. -/
def execEngineFailureDeclared (e : Fin 12) (s : State) : Host.Outcome State Fault Refusal :=
  .next (if 2 ≤ e.val && decide (8 ≤ s.eng[e].missed) && !s.eng[e].failed && wardenRuns s then finding 0x09 7 e.val 0 s.eng[e].missed s else s)

/-- When an engine was last declared failed. -/
def failedAt (s : State) (e : Fin 12) : TB := s.eng[e].fails.headD 0

/-- R500: 1 s after the declaration. -/
def execEngineRestart (e : Fin 12) (s : State) : Host.Outcome State Fault Refusal :=
  .next (if s.warden.restartDue.contains e && passed s (failedAt s e) 1000 && wardenRuns s then restartEngine e s else s)

/-- R500: 64 frames completed; Warden closes the engine's faults. -/
def engineVerified (e : Fin 12) (s : State) : State :=
  each (engineFaults s e) (fun f => closeFault f 2) (onEng e (fun x => { x with verify := false }) s)

def execEngineVerified (e : Fin 12) (s : State) : Host.Outcome State Fault Refusal :=
  .next (if s.eng[e].verify && decide (64 ≤ s.eng[e].frames) && engineUp s e && wardenRuns s then engineVerified e s else s)

/-- R33: Warden finds Anvil's watchdog missed; the value is the restarts in 24 h. -/
def execAnvilWatchdogMiss (s : State) : Host.Outcome State Fault Refusal :=
  .next (if s.eng[(0 : Fin 12)].running && wardenRuns s then finding 0x0A 7 0 0 ((recentRestarts s).length + 1) s else s)

/-- R34, R340, R498: Warden has not served its watchdog for 4 ms in which its clock ran. The hardware stops the device, and Anvil runs
alone; Anvil pushes the event. -/
def execWardenWatchdogExpiry (s : State) : Host.Outcome State Fault Refusal :=
  .next (if s.warden.alive && !deepStandby s && passed s s.warden.fedTb 4 then
      let s1 := reportUnit 0x0B 7 1 0 0 s
      let s2 := stopDevice (onEng 1 (fun x => { x with running := false, failed := true })
        { s1 with warden := { s1.warden with alive := false } })
      if s.dev = .deviceStop then s2 else pushEventAt s2.tb 0x0A04 true [0x0B, 7, 1] s2
    else s)

/-- R340: no write of Anvil or of the standby source engine within 16 ms; a window opens, and Warden treats Anvil as having missed its
watchdog, the source engine as failed. -/
def execStandbyWatchdogMiss (anvil : Bool) (s : State) : Host.Outcome State Fault Refusal :=
  .next (if s.dev = .standby && passed s (if anvil then s.stby.anvilTb else s.stby.srcTb) 16 then
      let s1 := openWindow s
      if anvil then finding 0x0A 7 0 0 ((recentRestarts s1).length + 1) s1
      else match s.stby.engine with
        | some e => finding 0x09 7 (2 + e.val) 0 8 s1
        | none => s1
    else s)

/-! ### Errors of memories and buses (R29, R326, R333) -/

/-- The report carries the master of the access; in an engine RAM that is its owner, as which the scrubber reports too (R26). -/
def eccReport (ringSram : Bool) (i : Fin 16) (master : BitVec 4) (double : Bool) (addr : Word) (access : Access)
    (syndrome : Word) : Report :=
  let e := i.val % 12
  { checker := if double then 0x02 else 0x01, master := if ringSram then master else BitVec.ofNat 4 e, access := access,
    unitKind := if ringSram then 12 else 7, unitIdx := byte (if ringSram then i.val else e), addr := addr,
    cause := if ringSram then 1 else 0, value := syndrome }

/-- A double-bit error of the ring SRAM spoils the entry at that place, if one lives there. -/
def spoilEntry (q : Fin 16) (addr : Word) (s : State) : State :=
  let r := s.ring[q]
  let slot := (addr.toNat - ringBase q) / entrySize q
  let l := r.entries.zipIdx.map fun (e, k) =>
    if ((cEff r).toNat + k) % capacity q = slot then { e with crcOk := false } else e
  putRing q { r with entries := l } s

/-- R326: corrected, or reported; uncorrected code is never executed, so a fetch of it stops the engine. An injection on the
checker marks the report (R503). -/
def execEccError (ringSram : Bool) (index : Fin 16) (master : BitVec 4) (double : Bool) (addr : Word) (access : Access)
    (syndrome : Word) (s : State) : Host.Outcome State Fault Refusal :=
  .next (if s.clk.vcc then
      let (inj, s1) := if ringSram then (false, s) else injected (if double then 0x02 else 0x01) s
      let s2 := if ringSram && double then spoilEntry index addr s1 else s1
      let s3 := if !ringSram && double && access = .fetch then onEng (fin12 (index.val % 12)) (fun x => { x with halted := true }) s2 else s2
      report { eccReport ringSram index master double addr access syndrome with injected := inj } s3
    else s)

/-! ### The internal address map (R27) -/

/-- The ring at an address of the ring SRAM; its last 62 KiB are reserved (R328). -/
def ringAt (a : Nat) : Option (Fin 16) :=
  (List.finRange 16).find? fun q => decide (ringBase q ≤ a) && decide (a < ringBase q + entrySize q * capacity q)

/-- A push or pop of the ring SRAM by a master of the ring (R23). -/
def ringPermits (m : BitVec 4) (acc : Access) (a : Nat) : Bool :=
  match ringAt a, acc with
  | some q, .push => isProducer q m
  | some q, .pop => isConsumer q m || (q = 15 && m = 15)
  | _, _ => false

/-- The table "Internal address map": an access by a master inside a range that permits it. Warden reads what it may write
(log 111). -/
def mapPermits (s : State) (m : BitVec 4) (acc : Access) (addr : Word) : Bool :=
  let a := addr.toNat
  let n := m.toNat
  let inside (lo hi : Nat) : Bool := decide (lo ≤ a) && decide (a ≤ hi)
  let data : Bool := acc = .read || acc = .write
  if inside 0x00000000 0x0007FFFF then n = 0 && (acc = .fetch || acc = .read)
  else if inside 0x00080000 0x0008FFFF then n = 1 && (acc = .fetch || acc = .read)
  else if inside 0x10000000 0x1003FFFF then n = 0 && (data || acc = .fetch)
  else if inside 0x11010000 0x110B7FFF then
    decide (1 ≤ n) && decide (n ≤ 11) && inside (0x11000000 + 0x10000 * n) (0x11007FFF + 0x10000 * n) && (data || acc = .fetch)
  else if inside 0x20000000 0x2003FFFF then ringPermits m acc a
  else if inside 0x40000000 0x400FFFFF then
    (n = 0 && acc = .read) || (data && (n = 1 || (decide (n < 12) && engineOf s (Config.regChan addr) = fin12 n)))
  else if inside 0x40100000 0x4010FFFF then data && (n = 0 || n = 1)
  else if inside 0x40200000 0x4020FFFF then data && decide (n ≤ 11)
  else if inside 0x40300000 0x4030FFFF then data && (n = 0 || n = 15)
  else if inside 0x40400000 0x4040FFFF then data && n = 0
  else if inside 0x40500000 0x4050FFFF then acc = .read || (acc = .write && n = 0)
  else if inside 0x50000000 0x5000FFFF then data && (n = 13 || n = 14 || n = 0)
  else if inside 0x60000000 0x6000FFFF then (data && n = 1) || (acc = .read && n = 0)
  else if inside 0x70000000 0x70007FFF then acc = .read && (n = 0 || n = 1)
  else if inside 0x70010000 0x700100FF then data && n = 0
  else false

/-- R27, R29: an access of an engine or the DMA outside the ranges it may use. A write is dropped, a read returns 0, a fetch
stops the engine, which Warden declares failed; a permitted access is no error. -/
def execInternalBusError (master : BitVec 4) (access : Access) (addr : Word) (s : State) : Host.Outcome State Fault Refusal :=
  .next (if s.clk.vcc && master.toNat ≤ 12 && access ≠ .none && !mapPermits s master access addr then busError master access addr s
    else s)

/-- R333: the PLL reference switches to the RC; the crystal is tried again only at the next boot. -/
def execCrystalLost (s : State) : Host.Outcome State Fault Refusal :=
  .next (if s.clk.crystal then
      reportUnit 0x3C 0 0 0 0 { s with clk := { s.clk with crystal := false, crystalLost := true, switchDue := false } }
    else s)

/-! ### Clears (R450) -/

/-- A failed phase readmitted: it joins at the next boundary, or at the next start (R143). -/
def readmitPhase (k : Fin 28) (s : State) : State :=
  let c := chanLow s (chanOfPhase k)
  let s1 := unstopGang .lastPhase c (onPhase k (fun p => { p with rejoin := true }) s)
  if nHealthy s c = 0 && !s.chan[c].offByCmd && s.chan[c].hic = .off then softStart c (portVolt s c) s1 else s1

/-- A hiccup latch cleared: Soft-start with the retry counter at zero (R135); a USB source port may attach again (R260). -/
def clearHiccup (c : Fin 16) (s : State) : State :=
  if s.chan[c].hic = .latched then
    let s1 := unstopGang .latch c (onChan c (fun h => { h with retry := 0, hic := .off }) s)
    let s2 := if 8 ≤ c.val && c.val < 12 then onUsb (fin4 (c.val - 8)) (fun u => { u with latched := false }) s1 else s1
    if s.chan[c].offByCmd then s2 else softStart c (portVolt s c) s2
  else s

def markReadmit (f : FaultRec) (s : State) : State := setFault { f with readmit := true } s

/-- An accepted clear of a fault: its effect, and the fault closed or put into re-admission. -/
def clearFault (f : FaultRec) (src : Nat) (s : State) : State :=
  let r := f.rep
  if spoilsEngine r && f.cls = .degrade && decide (2 ≤ (idx12 r).val) then restartEngine (idx12 r) (markReadmit f s)
  else match r.checker.toNat with
    | 0x10 => markReadmit f (readmitPhase (idx28 r) s)
    | 0x11 => closeFault f src (clearHiccup (idx16 r) s)
    | 0x20 => closeFault f src (releaseOvp (idx4 r) src s)
    | 0x24 => closeFault f src (each (List.finRange 8) (fun n => releaseStop (.ntc n) (chanOfBat (idx4 r))) s)
    | 0x28 => closeFault f src (clearLoadLatch (idx32 r) s)
    | 0x30 => markReadmit f (onConv (idx16 r) (fun x => { x with readmit := true }) s)
    | 0x31 => markReadmit f (onGroup (fin4 (r.unitIdx.toNat / 48)) (fun g => { g with readmitIn := putBit g.readmitIn (r.unitIdx.toNat % 48) true }) s)
    | 0x38 => markReadmit f (onSensor (idx20 r) (fun x => { x with restoring := true, restTb := s.tb, devs := 0, opens := 0, shorts := 0 }) s)
    | _ => closeFault f src s

/-! ### Holds (R20, R495) -/

/-- A standing Port-stop (or Device-stop) fault of the unit itself, of its channel, of its channel's last phase or of its Assay
group. -/
def portHeld (s : State) (kind idx : Nat) (c : Option (Fin 16)) : Bool :=
  s.warden.standing.any fun f =>
    decide (2 ≤ clsRank f.cls) &&
    ((f.rep.unitKind = byte kind && f.rep.unitIdx = byte idx) ||
     (match c with
      | some c => (f.rep.unitKind = 5 && idx16 f.rep = c) || (f.rep.unitKind = 6 && chanLow s (chanOfPhase (idx28 f.rep)) = c)
      | none => false) ||
     (f.rep.checker = 0x32 && ((f.rep.unitIdx = 0 && kind = 1) || (f.rep.unitIdx = 1 && kind = 2))))

/-- R143: probation completed; the phase's fault closes. -/
def execProbationComplete (phase : Fin 28) (s : State) : Host.Outcome State Fault Refusal :=
  .next (if s.phase[phase].healthy && s.phase[phase].probation = 1 then
      closeFor 0x10 6 (byte phase.val) 2 (onPhase phase (fun p => { p with probation := 0 }) s)
    else s)

/-- R218: the open-tap test of a second; ten passes in succession release the stop, and Anvil closes the fault. -/
def execOpenTapTest (port : Fin 4) (moved : BitVec 16) (s : State) : Host.Outcome State Fault Refusal :=
  .next (if tapsWatched s port then
      if moved ≠ 0 then tapFault port moved s
      else
        let x := s.bat[port]
        if x.tapStop then
          if 9 ≤ x.tapPasses then closeFor 0x21 3 (byte port.val) 1 (tapRestored port s)
          else onBat port (fun x => { x with tapPasses := x.tapPasses + 1 }) s
        else onBat port (fun x => { x with openMask := 0, tapPasses := 0 }) s
    else s)

end Sys2Proof.Machine
end

