-- ==== Sys2Proof/Machine/Thermal.lean ====
section
/-! DEFINITION. Temperature sensors, their cross-check and substitution, the throttle factor θ, warnings and shutdowns
(chapter 12). Thresholds are Warden's own (R553), in 0.5 °C. -/

namespace Sys2Proof.Machine
open Sys2Proof

def fin20 (n : Nat) : Fin 20 := Fin.ofNat 20 n

/-! ### Thresholds -/

def halfDeg (s : State) (k : Nat) : Q := (wardenKey s k : Q) / 2
def tWrn (s : State) : Q := halfDeg s 0x900
def tThr (s : State) : Q := halfDeg s 0x902
def tSd (s : State) : Q := halfDeg s 0x904
def ntcThr (s : State) (base : Nat) (i : Fin 20) : Q := halfDeg s (base + (i.val - 12))
def isDie (i : Fin 20) : Bool := decide (i.val < 12)

/-- The battery ports whose NTC mask selects a sensor (R182). -/
def maskPorts (s : State) (i : Fin 20) : List (Fin 4) :=
  if isDie i then [] else (List.finRange 4).filter fun p => (param s (0x474 + p.val)).toNat.testBit (i.val - 12)

/-- An NTC in no port's mask (R311). -/
def isBoard (s : State) (i : Fin 20) : Bool := !isDie i && (maskPorts s i).isEmpty

/-! ### Neighbours and deviation (R310, R312) -/

def dieNeighbours : Nat → List Nat
  | 0 => [1, 4] | 1 => [0, 2, 5] | 2 => [1, 3, 6] | 3 => [2, 7] | 4 => [0, 5, 8] | 5 => [1, 4, 6, 9]
  | 6 => [2, 5, 7, 10] | 7 => [3, 6, 11] | 8 => [4, 9] | 9 => [5, 8, 10] | 10 => [6, 9, 11] | 11 => [7, 10] | _ => []

/-- Neighbours of a sensor: on the grid, or the other NTCs of every mask that contains it. -/
def neighbours (s : State) (i : Fin 20) : List (Fin 20) :=
  if isDie i then (dieNeighbours i.val).map fin20
  else ((List.range 8).map fun n => fin20 (12 + n)).filter fun j =>
    j ≠ i && (maskPorts s i).any fun p => (maskPorts s j).contains p

/-- A neighbour that is valid and reads. -/
def validRead (s : State) (i : Fin 20) : Option Q := if s.therm.sensors[i].failed then none else s.therm.sensors[i].raw

/-- Pairs of a list, lowest first. -/
def pairsOf {α : Type} : List α → List (α × α)
  | [] => []
  | a :: l => l.map (fun b => (a, b)) ++ pairsOf l

/-- A pair against which a sensor at t deviates. -/
def deviates (s : State) (t : Q) (ab : Fin 20 × Fin 20) : Bool :=
  match validRead s ab.1, validRead s ab.2 with
  | some a, some b => decide ((a - b).abs ≤ 4) && decide (12 < (t - a).abs) && decide (12 < (t - b).abs)
  | _, _ => false

def deviantPair (s : State) (i : Fin 20) : Option (Fin 20 × Fin 20) :=
  match s.therm.sensors[i].raw with
  | some t => (pairsOf (neighbours s i)).find? (deviates s t)
  | none => none

/-- Fewer than two valid neighbours: the sensor is not cross-checked (R312). -/
def crossChecked (s : State) (i : Fin 20) : Bool :=
  decide (2 ≤ ((neighbours s i).filter fun j => (validRead s j).isSome).length)

/-! ### Failure and substitution (R313, R314) -/

def highestDie (s : State) : Q :=
  maxQ ((List.range 12).filterMap fun n => validRead s (fin20 n))

/-- The value in use: the reading, or for a failed sensor the mean of its pair, or the highest valid on-die reading. -/
def valueInUse (s : State) (i : Fin 20) : Q :=
  let x := s.therm.sensors[i]
  if !x.failed then x.raw.getD x.used
  else match x.pair with
    | some (a, b) =>
      match validRead s a, validRead s b with
      | some u, some v => (u + v) / 2
      | _, _ => highestDie s
    | none => highestDie s

def tField (t : Q) : List Byte := quant 2 (t * 10)
def thermEvent (code : Half) (i : Fin 20) (s : State) : State :=
  pushEvent code (byte i.val :: tField s.therm.sensors[i].used) s

/-- A sensor declared failed (R312): its fault, and the event. -/
def failSensor (i : Fin 20) (kind : Fin 4) (s : State) : State :=
  thermEvent 0x0907 i (finding 0x38 11 i.val kind.val 0 (dropSensor i kind s))

/-- The temperature of NTC n at a ratio to its bias: 298.15 K is 5963/20 K (R311). -/
def ntcTemp (s : State) (n : Nat) (x : Q) : Q :=
  let r := (wardenKey s (0x938 + n) : Q) * x / (1 - x)
  1 / (20 / 5963 + Config.ln (r / (wardenKey s (0x928 + n) : Q)) / (wardenKey s (0x930 + n) : Q)) - 5463 / 20

/-- One result taken: an on-die temperature, or the ratio of an NTC with its counts of opens and shorts in succession (R311). -/
def takeReading (s : State) (i : Fin 20) (x : Sensor) : Sensor :=
  match x.next with
  | none => x
  | some q =>
    let hi := !isDie i && decide (98 / 100 < q)
    let lo := !isDie i && decide (q < 2 / 100)
    { x with next := none, read := true, opens := if hi then x.opens + 1 else 0, shorts := if lo then x.shorts + 1 else 0,
             raw := if hi || lo then none else if isDie i then some q else some (ntcTemp s (i.val - 12) q) }

/-- The cross-check of one sensor, on the readings and validities of the evaluation's start. -/
def checkSensor (s0 : State) (i : Fin 20) (s : State) : State :=
  let x := s.therm.sensors[i]
  let dev := deviantPair s0 i
  if x.failed then
    if x.restoring && (dev.isSome || 10 ≤ x.opens || 10 ≤ x.shorts) then
      finding 0x38 11 i.val (if 10 ≤ x.opens then 1 else if 10 ≤ x.shorts then 2 else 0) 0 s
    else s
  else if 10 ≤ x.opens then failSensor i 1 s
  else if 10 ≤ x.shorts then failSensor i 2 s
  else
    let s1 := onSensor i (fun x => { x with devs := if dev.isSome then x.devs + 1 else 0, pair := dev }) s
    if dev.isSome && 15 ≤ x.devs then failSensor i 0 s1 else s1

/-! ### Thresholds (R316, R317, R319 to R321) -/

/-- A threshold crossed upwards at its value, left downwards at its value less its hysteresis. -/
def schmitt (old : Bool) (t hi hyst : Q) : Bool := if hi ≤ t then true else if t ≤ hi - hyst then false else old

/-- R316: warning flag and events; on-die at T_WRN, an NTC at its own. A crossing ends standby (R341). -/
def warnSensor (i : Fin 20) (s : State) : State :=
  let x := s.therm.sensors[i]
  let w := if isDie i then schmitt x.warning x.used (tWrn s) (halfDeg s 0x901)
           else if x.failed then x.warning else schmitt x.warning x.used (ntcThr s 0x910 i) (halfDeg s 0x906)
  if w = x.warning || !x.read then s
  else wantRunning 4 (thermEvent (if w then 0x0901 else 0x0902) i (onSensor i (fun x => { x with warning := w }) s))

/-- The on-die sensor that sets T_J. -/
def hottest (s : State) : Fin 20 :=
  ((List.range 12).foldl (fun b n => if s.therm.sensors[fin20 b].used < s.therm.sensors[fin20 n].used then n else b) 0 |> fin20)

/-- R317: the throttle state of the junction. -/
def throttleDie (s : State) : State :=
  let t := schmitt s.therm.tjThrottle s.therm.tj (tThr s) (halfDeg s 0x903)
  if t = s.therm.tjThrottle then s
  else wantRunning 4 (thermEvent (if t then 0x0903 else 0x0904) (hottest s) { s with therm := { s.therm with tjThrottle := t } })

/-- R317: the throttle state of a valid board NTC. -/
def throttleNtc (i : Fin 20) (s : State) : State :=
  let x := s.therm.sensors[i]
  let t := if isBoard s i && !x.failed && x.read then schmitt x.throttle x.used (ntcThr s 0x918 i) (halfDeg s 0x906) else false
  if t = x.throttle then s
  else wantRunning 4 (thermEvent (if t then 0x0903 else 0x0904) i (onSensor i (fun x => { x with throttle := t }) s))

/-- Every channel stopped; a rest that runs is disturbed and a run of Annealing abandoned (R319, R323). -/
def stopAll (t : Stop) (s : State) : State :=
  let s1 := each (List.finRange 16) (fun c s => if chanLow s c = c then assertStop t c s else s) s
  each ((List.finRange 4).filter fun p => s1.bat[p].resting) disturbRest s1

/-- A shutdown begins: its Note-class fault, counter and event; one that stands goes on (R319, R320). -/
def beginShutdown (i : Fin 20) (hardware : Bool) (s : State) : State :=
  if shutdownStands s then s
  else
    let s1 := { s with therm := { s.therm with shutCnt := s.therm.shutCnt.bump, above := 0 } }
    let s2 := if hardware then reportUnit 0x39 0 0 i.val 0 s1 else finding 0x39 0 0 i.val 0 s1
    thermEvent 0x0905 i s2

def markAbove (i : Fin 20) (s : State) : State := { s with therm := { s.therm with above := putBit s.therm.above i.val true } }

/-- Warden's own shutdown, on T_J or a board NTC. -/
def wardenShutdown (i : Fin 20) (s : State) : State :=
  let s1 := beginShutdown i false s
  markAbove i (stopAll .thermalWarden { s1 with therm := { s1.therm with warden := true } })

/-- R321: an NTC of a mask stops the channels of the ports that select it. -/
def ntcShutdown (i : Fin 20) (s : State) : State :=
  let n := fin8 (i.val - 12)
  let s1 := each (maskPorts s i) (fun p s =>
    finding 0x24 3 p.val n.val 0 (assertStop (.ntc n) (chanOfBat p) s)) s
  thermEvent 0x0905 i s1

/-- Shutdown thresholds of one sensor: its flag, and the action on an upward crossing. -/
def shutSensor (i : Fin 20) (s : State) : State :=
  let x := s.therm.sensors[i]
  let f := if isDie i then schmitt x.shutdown x.used (tSd s) (halfDeg s 0x905)
           else schmitt x.shutdown x.used (ntcThr s 0x920 i) (halfDeg s 0x907)
  if !x.read || (x.failed && !isDie i) then s
  else
    let s1 := onSensor i (fun x => { x with shutdown := f }) s
    if f && !x.shutdown then
      if isDie i || isBoard s i then wardenShutdown i s1 else ntcShutdown i s1
    else if !f && x.shutdown && !isDie i && !isBoard s i then thermEvent 0x0906 i s1
    else s1

def setUsed (s : State) : State :=
  { s with therm := { s.therm with sensors := vmapIdx s.therm.sensors fun i x => { x with used := valueInUse s i } } }

/-! ### The release of a shutdown, and restorations (R313, R320) -/

/-- The value below which a sensor has released: on-die the lower of the comparator's 115 °C and T_SD less its hysteresis. -/
def releaseValue (s : State) (i : Fin 20) : Q :=
  if isDie i then min 115 (tSd s - halfDeg s 0x905) else ntcThr s 0x920 i - halfDeg s 0x907

/-- Every valid on-die sensor and valid board NTC is below its release value. -/
def allReleased (s : State) : Bool :=
  (List.finRange 20).all fun i =>
    let x := s.therm.sensors[i]
    x.failed || !x.read || !(isDie i || isBoard s i) || decide (x.used < releaseValue s i)

/-- Not counted if the only sensor above its threshold has been declared failed (R320). -/
def shutdownCounts (s : State) : Bool :=
  let up := (List.finRange 20).filter fun i => s.therm.above.getLsbD i.val
  match up with
  | [i] => !s.therm.sensors[i].failed
  | _ => true

/-- The third counted shutdown in 1 h: the standing fault escalates to Device-stop, without a new occurrence (R320). -/
def shutdownEscalates (i : Fin 20) (s : State) : State :=
  match findFault s 0x39 0 0 with
  | some f =>
    let g := { f with oldCls := f.cls, cls := .deviceStop }
    tellDeviceStop f.rep s.tb (faultReaction 2 g f.rep s.tb [] (setFault g (stopDevice s)))
  | none => finding 0x39 0 0 i.val 0 s

/-- A channel that switched before the stop soft-starts again (R320). -/
def restartStopped (c : Fin 16) (s : State) : State :=
  let h := s.chan[c]
  if chanLow s c = c && stoppedOnly h then softStart c (portVolt s c) s else s

def releaseShutdown (s : State) : State :=
  let i := hottest s
  let counts := shutdownCounts s
  let l := if counts then s.tb :: within 360000000000 s.tb s.therm.counted else within 360000000000 s.tb s.therm.counted
  let s1 := { s with therm := { s.therm with comp := 0, warden := false, above := 0, counted := l } }
  if counts && 3 ≤ l.length then shutdownEscalates i s1
  else
    let s2 := each (List.finRange 16) (fun c => onChan c (fun h => dropStop .thermalHw (dropStop .thermalWarden h))) s1
    thermEvent 0x0906 i (each (List.finRange 16) restartStopped s2)

/-- A shutdown stands, and its sensors have been below their release values for 100 ms. -/
def releaseDue (s : State) : Bool :=
  shutdownStands s && (match s.therm.calm with | some t => passed s t 100 | none => false)

/-- A restoration's 60 s have passed without a deviation (R313). -/
def restoreReady (s : State) (i : Fin 20) : Bool := s.therm.sensors[i].restoring && passed s s.therm.sensors[i].restTb 60000

/-- The sensor is valid, its comparator enabled, its fault closed. -/
def restoreSensor (i : Fin 20) (s : State) : State :=
  let on (t : Therm) : Therm := { t with compOff := putBit t.compOff i.val false }
  let s1 := onSensor i (fun x => { x with failed := false, restoring := false, devs := 0 }) s
  let s2 := if isDie i then { s1 with therm := on s1.therm } else s1
  thermEvent 0x0908 i (closeFor 0x38 11 (byte i.val) 2 s2)

/-- What an evaluation finds overdue by more than a frame it does itself (log 13). -/
def overdueTherm (s : State) : State :=
  let late (t : TB) (ms : Nat) : Bool := decide (ms * 100000 ≤ (s.tb - t).toNat)
  let s1 := each ((List.finRange 20).filter fun i => restoreReady s i && late s.therm.sensors[i].restTb 60000) restoreSensor s
  whenS (releaseDue s1 && (match s1.therm.calm with | some t => late t 100 | none => false)) releaseShutdown s1

/-- R312: one rotation of group D evaluated by Warden. -/
def evaluateTemps (s : State) : State :=
  let all := List.finRange 20
  let s1 := { s with therm := { s.therm with rotDue := false, sensors := vmapIdx s.therm.sensors (takeReading s) } }
  let s2 := setUsed (each all (checkSensor s1) s1)
  let s3 := { s2 with therm := { s2.therm with tj := maxQ ((List.range 12).map fun n => s2.therm.sensors[fin20 n].used) } }
  let s4 := each all shutSensor (each all throttleNtc (throttleDie (each all warnSensor s3)))
  let s5 := { s4 with therm := { s4.therm with calm := if allReleased s4 then some (s4.therm.calm.getD s4.tb) else none } }
  overdueTherm s5

def execTemperatureEvaluation (s : State) : Host.Outcome State Fault Refusal :=
  .next (if wardenRuns s && s.therm.rotDue && !s.group[(3 : Fin 4)].lost then evaluateTemps s else s)

/-! ### θ (R317, R318) -/

def thetaTerm (t thr sd : Q) : Q :=
  let d := sd - 5 - thr
  if d = 0 then (if t < sd - 5 then 1 else 0) else min 1 (max 0 ((sd - 5 - t) / d))

def thetaNow (s : State) : Q :=
  let board := (List.range 8).filterMap fun n =>
    let i := fin20 (12 + n)
    let x := s.therm.sensors[i]
    if isBoard s i && !x.failed && x.read then some (thetaTerm x.used (ntcThr s 0x918 i) (ntcThr s 0x920 i)) else none
  board.foldl min (thetaTerm s.therm.tj (tThr s) (tSd s))

/-- θ written to every channel block (R318). -/
def writeTheta (s : State) : State :=
  let t := thetaNow s
  { s with therm := { s.therm with theta := t }, chan := vmap s.chan fun c => { c with theta := t } }

/-! ### Shutdowns (R319, R320) -/

/-- R319: an enabled comparator trips at 135 °C; every channel stops in hardware. -/
def execThermalComparatorTrip (sensor : Fin 12) (s : State) : Host.Outcome State Fault Refusal :=
  let i := fin20 sensor.val
  .next (if s.clk.vcc && !s.therm.compOff.getLsbD i.val && !s.therm.comp.getLsbD i.val then
      let s0 := beginShutdown i true s
      let s1 := { s0 with therm := { s0.therm with calm := none } }
      markAbove i (stopAll .thermalHw { s1 with therm := { s1.therm with comp := putBit s1.therm.comp i.val true } })
    else s)

def execShutdownRelease (s : State) : Host.Outcome State Fault Refusal :=
  .next (if releaseDue s && wardenRuns s then releaseShutdown s else s)

def execSensorRestored (sensor : Fin 20) (s : State) : Host.Outcome State Fault Refusal :=
  .next (if restoreReady s sensor && wardenRuns s then restoreSensor sensor s else s)

end Sys2Proof.Machine
end

