-- ==== Sys2Proof/Machine/Assay.lean ====
section
/-! DEFINITION. The Assay: the standard schedule, triggers, sets, urgent requests, records, calibration and checks
(chapter 11). -/

namespace Sys2Proof.Machine
open Sys2Proof

def fin48 (n : Nat) : Fin 48 := Fin.ofNat 48 n
def fin64 (n : Nat) : Fin 64 := Fin.ofNat 64 n

/-- TB at so many counts after the frame's start; time never runs back. -/
def stampAt (s : State) (after : Nat) : TB :=
  match s.lastFrame with
  | none => s.tb
  | some t =>
    let x := t + BitVec.ofNat 64 (min after 204799)
    if s.tb.toNat ≤ x.toNat then x else s.tb

/-- k, the healthy converters of a group (R288). -/
def kOf (s : State) (g : Fin 4) : Nat := (healthyConvs s g).length

/-! ### The standard schedule (R308) -/

/-- Inputs that a set may name (R286). -/
def inputDefined (g : Fin 4) (i : Nat) : Bool :=
  if 44 ≤ i then decide (i < 48)
  else match g.val with
    | 0 => decide (i < 24) | 1 => true | 2 => decide (i < 36) | _ => decide (i < 40)

def plain (is : List Nat) (t : Trig) (sb : Bool := true) : SchedEntry := { inputs := is.map fin48, trigger := t, standby := sb }

/-- Units 2i and 2i + 1 share a set while four converters are healthy, and run one unit a set with fewer (R306); entries
of disabled ports are off. Each unit is given with its two inputs. -/
def pairSets (k : Nat) (us : List (Option (List Nat))) (period off : Nat) : List SchedEntry :=
  let sets := if 4 ≤ k then (List.range (us.length / 2)).map fun i => (us.getD (2 * i) none).toList ++ (us.getD (2 * i + 1) none).toList
              else us.map (·.toList)
  sets.zipIdx.map fun (x, i) => if x.isEmpty then plain [] .off else plain x.flatten (.period period (off + i))

def wide (lp : Bool) (us : Nat) : Nat := if lp then 4 * us else us

/-- The battery ports whose cells group D rotates through (R225, R308), each with its count of segments: all sixteen while the count is
not known or is being taken (R217). -/
def cellPorts (s : State) : List (Fin 4 × Nat) :=
  ((List.finRange 4).filter fun p => batEn s p).map fun p =>
    (p, if s.bat[p].nSeg = 0 || s.bat[p].charge = .qualification then 16 else s.bat[p].nSeg)

/-- Ring periods of channel 12 in a control frame (R308). -/
def ringPeriods (s : State) : Nat := (max 1 (rnd (s.chan[(12 : Fin 16)].fsw * 256 / 1000000))).toNat

/-- The measurement entries of a group (table "Standard schedule"). -/
def stdEntries (s : State) (g : Fin 4) (k : Nat) (lp : Bool) : List SchedEntry :=
  let unit (en : Bool) (l : List Nat) : Option (List Nat) := if en then some l else none
  match g.val with
  | 0 =>
    pairSets k ((List.finRange 8).map fun p => unit (srcEn s p) [p.val, 8 + p.val]) (wide lp 8) 0 ++
    [{ inputs := (List.range 8).map fun n => fin48 (16 + n), rotation := true, trigger := .frame 128, standby := true }]
  | 1 =>
    let loads := (List.finRange 32).map fun p =>
      let j := p.val / 2
      if loadEn s p then { plain [12 + j, 28 + j] (.frameRandom (if lp then 4 else 1)) with load := some p } else { plain [12 + j, 28 + j] .off with load := some p }
    pairSets k ((List.finRange 4).map fun p => unit (usbEn s p) [p.val, 4 + p.val]) (wide lp 8) 0 ++ loads ++
    (if 4 ≤ k then [plain [8, 9, 10, 11] (.frame 64)] else [plain [8] (.frame 64), plain [9] (.frame 64), plain [10] (.frame 64), plain [11] (.frame 64)])
  | 2 =>
    let n := ringPeriods s
    let mid := min 255 (s.chan[(12 : Fin 16)].period / 128)
    let follower (p : Fin 4) (lead : Nat) : SchedEntry :=
      { inputs := [fin48 (28 + p.val)], trigger := .linked 3 (fin64 lead), standby := true }
    pairSets k ((List.finRange 4).map fun p => unit (batEn s p) [28 + p.val, 32 + p.val]) (wide lp 8) 4 ++
    [{ inputs := (List.range 28).map fin48, rotation := true, trigger := .ring 12 mid (if lp then 4 * n else n), standby := true }] ++
    (cellPorts s).zipIdx.map (fun (p, i) => follower p.1 i) ++
    (cellPorts s).zipIdx.map fun (p, i) => follower p.1 ((cellPorts s).length + i)
  | _ =>
    let cells (t : Fin 4 → Trig) : List SchedEntry := (cellPorts s).map fun p =>
      { inputs := (List.range p.2).map fin48, rotation := true, trigger := t p.1, port := some p.1, standby := true }
    cells (fun _ => .frame 24) ++ cells .rest ++
    (if 4 ≤ k then [plain [36, 37, 38, 39] (.frame 60)] else [plain [36] (.frame 60), plain [37] (.frame 60), plain [38] (.frame 60), plain [39] (.frame 60)]) ++
    [{ inputs := (List.range 20).map fun n => fin48 (16 + n), rotation := true, trigger := .period (if lp then 4000 else 1000) 0, standby := true }]

/-- The schedule written: the counts of each entry go on. -/
def buildSchedule (g : Fin 4) (s : State) : State :=
  let l := stdEntries s g (kOf s g) s.group[g].lowPower
  onGroup g (fun x => { x with
    entries := vmapIdx x.entries fun i e => if i.val < 60 then { l.getD i.val {} with count := e.count, missed := e.missed, miss := e.miss, gap := e.gap, gen := e.gen, drawnTb := e.drawnTb } else e,
    waiting := [], remain := none, built := l }) s

/-- In a policy frame Anvil rebuilds the schedule of a group that no longer fits its converters, its mode, a frequency or a
cell count (R306 to R308). -/
def rebuildSchedule (g : Fin 4) (s : State) : State :=
  if s.group[g].built = stdEntries s g (kOf s g) s.group[g].lowPower then s else buildSchedule g s

/-! ### Triggers (R289 to R293) -/

/-- The group's work goes on: powered, not lost. -/
def assayRuns (s : State) (g : Fin 4) : Bool := s.clk.vcc && !s.group[g].lost && decide (s.dev ≠ .boot ∨ s.warden.alive = true)

def entryBusy (x : Group) (e : Fin 64) : Bool :=
  x.waiting.contains e || (match x.running with | some r => r.entry = e | none => false) ||
  (match x.remain with | some r => r.entry = e | none => false) || (match x.aborted with | some r => r.entry = e | none => false)

/-- A relaxation capture runs on a port: its pre-edge sets from the decision for a rest, the burst and the log-spaced points (R227). -/
def capturing (s : State) (p : Fin 4) : Bool := s.bat[p].resting

/-- A relaxation capture holds groups C and D (R309). -/
def captureRuns (s : State) (g : Fin 4) : Bool := 2 ≤ g.val && (List.finRange 4).any (capturing s)

/-- The entry's trigger falls at this time (table "Trigger kinds"). A ring entry falls in its ring's period, once in every n from the
first; a frame-random one once in a frame that it has, at the instant of its generator. -/
def triggerFalls (s : State) (g : Fin 4) (e : Fin 64) (after : Nat) : Bool :=
  let x := s.group[g].entries[e]
  match x.trigger with
  | .off | .linked _ _ => false
  | .period us off => decide ((stampAt s after).toNat % 100 = 0) && decide ((stampAt s after).toNat / 100 % us = off % us)
  | .frame us => decide (after = 100 * us)
  | .frameRandom n =>
    let frame := (s.lastFrame.getD 0).toNat / 25600
    decide (frame % n = 0) && x.drawnTb ≠ s.lastFrame &&
    decide (after = Config.entryInstant (x.gen.getD (Config.entrySeed g e)) % 25600)
  | .ring ch _ n => match x.ring0 with
    | none => true
    | some (a, b) => decide (b < s.chan[ch].periods) && decide ((s.chan[ch].periods - a) % n = 0)
  | .rest p => capturing s p
  | .software => true

/-- The trigger of an entry falls: waiting, or a miss (R293); the occurrence count advances at every trigger (R298). -/
def trigger (g : Fin 4) (e : Fin 64) (s : State) : State :=
  onGroup g (fun x =>
    let y := { x with entries := upd x.entries e fun t => { t with count := t.count + 1 } }
    if entryBusy x e then { y with entries := upd y.entries e fun t => { t with missed := true, miss := t.miss.bump, gap := t.gap + 1 } }
    else { y with waiting := y.waiting ++ [e] }) s

/-- What a trigger leaves for the next: the generator of a frame-random entry steps, the period of a ring entry is kept. -/
def triggered (s : State) (g : Fin 4) (e : Fin 64) (x : SchedEntry) : SchedEntry :=
  match x.trigger with
  | .frameRandom _ => { x with drawnTb := s.lastFrame, gen := some (Config.entryStep (x.gen.getD (Config.entrySeed g e))) }
  | .ring ch _ _ => { x with ring0 := some ((x.ring0.map (·.1)).getD s.chan[ch].periods, s.chan[ch].periods) }
  | _ => x

def execAssayTrigger (g : Fin 4) (entry : Fin 60) (after : Nat) (s : State) : Host.Outcome State Fault Refusal :=
  let e := fin64 entry.val
  let t := s.group[g].entries[e]
  .next (if assayRuns s g && triggerFalls s g e after && !t.suspended && (s.dev ≠ .standby || t.standby) then
      trigger g e (onGroup g (fun x => { x with entries := upd x.entries e (triggered s g e) }) { s with tb := stampAt s after })
    else s)

/-! ### Sets (R288, R290 to R292) -/

/-- The tags of plain inputs are their positions in the entry (log 21). -/
def tagsFrom (n : Nat) : Nat → List (BitVec 4)
  | 0 => []
  | k + 1 => BitVec.ofNat 4 n :: tagsFrom (n + 1) k

/-- The first set of an entry, or the whole of it. -/
def setOf (s : State) (g : Fin 4) (e : Fin 64) (linked : Bool) : SetRun :=
  let t := s.group[g].entries[e]
  let k := if t.rotation then kOf s g else t.inputs.length
  { entry := e, inputs := t.inputs.take k, convs := healthyConvs s g, tags := tagsFrom 0 (t.inputs.take k).length,
    rest := t.inputs.drop k, restTag := k, count := t.count, port := t.port, load := t.load, linked := linked, start := s.tb }

/-- The next set of a rotation. -/
def nextSet (s : State) (g : Fin 4) (r : SetRun) : SetRun :=
  let k := kOf s g
  { r with inputs := r.rest.take k, convs := healthyConvs s g, tags := tagsFrom r.restTag (r.rest.take k).length,
           rest := r.rest.drop k, restTag := r.restTag + k, restarted := false, start := s.tb }

/-- Urgent requests in order: hardware first, then master ID, then input number (R295). -/
def urgentBefore (a b : Urgent) : Bool :=
  if a.hardware ≠ b.hardware then a.hardware
  else if a.master ≠ b.master then decide (a.master < b.master)
  else decide ((a.inputs.headD 0).val ≤ (b.inputs.headD 0).val)

def insertUrgent (u : Urgent) : List Urgent → List Urgent
  | [] => [u]
  | v :: l => if urgentBefore u v then u :: v :: l else v :: insertUrgent u l

/-- Requests merged into one set of up to k inputs; the rest form the next (R295). -/
def mergeUrgent : Nat → List Urgent → List Urgent × List Urgent
  | _, [] => ([], [])
  | k, u :: l => if u.inputs.length ≤ k then let (a, b) := mergeUrgent (k - u.inputs.length) l; (u :: a, b) else ([], u :: l)

def startUrgent (g : Fin 4) (s : State) : State :=
  let x := s.group[g]
  let (now, later) := mergeUrgent (max 1 (kOf s g)) (x.urgent.foldr insertUrgent [])
  let (now, later) := if now.isEmpty then (later.take 1, later.drop 1) else (now, later)
  let e : Fin 64 := if now.any (·.hardware) then 63 else 62
  let is := (now.flatMap (·.inputs)).take (kOf s g)
  let y := { x with entries := upd x.entries e fun t => { t with count := t.count + 1 }, urgent := later }
  let port := (now.filterMap (·.port)).head?
  onGroup g (fun _ => { y with
    running := some { entry := e, inputs := is, convs := healthyConvs s g, tags := tagsFrom 0 is.length, count := y.entries[e].count, port := port, start := s.tb },
    selected := port.getD y.selected }) s

/-- Followers of a leader's entry (R292). -/
def followers (s : State) (g : Fin 4) (e : Fin 64) : List (Fin 4 × Fin 64) :=
  (List.finRange 4).flatMap fun h => ((List.finRange 64).filter fun f =>
    s.group[h].entries[f].trigger = .linked g e && !s.group[h].entries[f].suspended && h ≠ g).map fun f => (h, f)

def groupFree (s : State) (g : Fin 4) : Bool :=
  s.group[g].running.isNone && s.group[g].urgent.isEmpty && s.group[g].aborted.isNone && !s.group[g].lost

/-- A set runs in its group, and its followers start with it. -/
def beginSet (g : Fin 4) (r : SetRun) (s : State) : State :=
  let fs := followers s g r.entry
  let w (x : Group) : List (Fin 64) := x.waiting.filter (· ≠ r.entry)
  let s1 := onGroup g (fun x => { x with running := some r, waiting := w x, remain := none, selected := r.port.getD x.selected }) s
  each fs (fun hf s =>
    let s2 := onGroup hf.1 (fun x => { x with entries := upd x.entries hf.2 fun t => { t with count := t.count + 1 } }) s
    onGroup hf.1 (fun x => { x with running := some (setOf s2 hf.1 hf.2 true) }) s2) s1

/-- The lowest waiting entry. -/
def lowestEntry : List (Fin 64) → Option (Fin 64)
  | [] => none
  | a :: l => some (l.foldl (fun m b => if b < m then b else m) a)

/-- The waiting entries that may start: while a capture runs, group D takes no other port's cells (R227, R308; log 122). -/
def startable (s : State) (g : Fin 4) : List (Fin 64) :=
  s.group[g].waiting.filter fun e =>
    match g.val, s.group[g].entries[e].port with
    | 3, some p => capturing s p || !captureRuns s 3
    | _, _ => true

/-- The chosen work of a free group: urgent, the remainder of a rotation, the lowest waiting entry (R291). -/
def startNext (g : Fin 4) (s : State) : State :=
  let x := s.group[g]
  if !x.urgent.isEmpty then startUrgent g s
  else
    let chosen := match x.remain with
      | some r => some (nextSet s g r)
      | none => (lowestEntry (startable s g)).map fun e => setOf s g e false
    match chosen with
    | none => s
    | some r => if (followers s g r.entry).all fun hf => groupFree s hf.1 then beginSet g r s else s

/-- R291: a set starts, so many counts after the frame's start; its time-stamp is that of its acquisition. -/
def execAssaySetStart (g : Fin 4) (after : Nat) (s : State) : Host.Outcome State Fault Refusal :=
  let x := s.group[g]
  .next (if assayRuns s g && x.running.isNone && kOf s g ≠ 0 && (x.aborted.isNone || !x.urgent.isEmpty) then
      startNext g { s with tb := stampAt s after }
    else s)

/-! ### Records (R297 to R300) -/

/-- The code corrected for the converter's offset and gain, and whether it lies beyond the scale (R286, R300). -/
def corrected (x : Conv) (c : BitVec 12) : Nat × Bool :=
  let v := rnd (x.gain * (c.toNat : Q) + x.offset)
  if v < 0 then (0, true) else if 4095 < v then (4095, true) else (v.toNat, false)

/-- The parity bit that makes the ones of 16 result bits and itself even. -/
def parityOf (w : Half) : Bool := (List.range 16).foldl (fun b i => b ^^ w.getLsbD i) false

/-- One result slot: its word and whether it is valid and beyond the scale. -/
structure Slot where
  word  : Half := 0
  valid : Bool := false
  range : Bool := false
  deriving DecidableEq, Repr

/-- The results of a set, slot i from the i-th converter that was healthy as it started; the slot of one that failed since
is not valid (R288, R299, R306). -/
def slotsOf (s : State) (g : Fin 4) (r : SetRun) (codes : List (BitVec 12)) : List Slot :=
  (List.range 4).map fun i =>
    match r.inputs[i]?, r.convs[i]?, codes[i]? with
    | some inp, some c, some code =>
      if s.group[g].failedIn.getLsbD inp.val || !s.conv[c].healthy then {}
      else
        let (v, o) := corrected s.conv[c] code
        { word := BitVec.ofNat 16 (v + 4096 * (r.tags.getD i 0).toNat), valid := true, range := o }
    | _, _, _ => {}

/-- The flags word of a record (table "Record flags"). -/
def recordFlags (sl : List Slot) (parity : List Bool) (restarted urgent linked missed test low last : Bool) : Nat :=
  bits (sl.map (·.valid)) + 16 * bits parity + 256 * bits [restarted, urgent, linked, missed, sl.any (·.range), test, low, last]

def recordBytes (sl : List Slot) (start : TB) (e : Fin 64) (count : BitVec 10) (flags : Nat) : List Byte :=
  sl.flatMap (fun x => le16 x.word) ++ le 4 (start.toNat % 2 ^ 32 : Nat) ++ le 2 (1024 * e.val + count.toNat : Nat) ++ le 2 (flags : Nat)

def groupRing (g : Fin 4) : Fin 16 := fin16 (4 + g.val)

/-- The address at which the next record goes. -/
def recordAddr (s : State) (g : Fin 4) : Word := entryAddr (groupRing g) s.ring[groupRing g].p

/-- A result whose parity does not match is reported against its converter (R305). -/
def reportParity (r : SetRun) (addr : Word) (i : Nat) (inj : Bool) (s : State) : State :=
  match r.convs[i]? with
  | some c =>
    report { checker := 0x06, master := 12, access := .push, injected := inj, unitKind := 8, unitIdx := byte c.val, addr := addr,
             value := BitVec.ofNat 32 i } s
  | none => s

/-- A record written to the group's ring after the parity check; an armed injection inverts the parity of result 0. -/
def writeRecord (g : Fin 4) (r : SetRun) (sl : List Slot) (bad : BitVec 4) (test last : Bool) (s : State) : State :=
  let x := s.group[g]
  let (inj, s1) := injected 0x06 s
  let wrong (i : Nat) : Bool := bad.getLsbD i ^^ (inj && i = 0)
  let par := sl.zipIdx.map fun (y, i) => parityOf y.word ^^ wrong i
  let missed := x.entries[r.entry].missed
  let urgent := r.entry = 62 || r.entry = 63
  let addr := recordAddr s1 g
  let fl := recordFlags sl par r.restarted urgent r.linked missed test x.lowPower last
  let s2 := onGroup g (fun y => { y with entries := upd y.entries r.entry fun t => { t with missed := false } }) s1
  let s3 := each ((List.range 4).filter wrong) (fun i => reportParity r addr i (inj && i = 0)) s2
  pushRing (groupRing g) (recordBytes sl r.start r.entry r.count fl) s3

/-! ### Quantities (table "Assay inputs"), front ends at their nominal scales (log 22) -/

def uni (fs : Q) (v : Nat) : Q := fs * v / 4095
def bip (fs : Q) (v : Nat) : Q := fs * ((v : Q) - 2048) / 2048

/-- Phase-sense current of a channel, mA: ±110 % of the sense range over its shunt. -/
def senseAmps (s : State) (c : Fin 16) (v : Nat) : Q :=
  let r := phaseShunt s c
  if r = 0 then 0 else bip (11 / 10 * (senseFs (chanKey s 0x280 c) : Q)) v * 1000 / r

/-- Energy of one record of a load port, µWh, and of the missing ones before it, each the mean of the records on either side (R281). -/
def loadEnergy (lowPower : Bool) (gap : Nat) (l : Load) (v i : Q) : Q :=
  let dt : Q := (if lowPower then 1024 else 256) / 1000000 / 3600
  let p := v * i
  p * dt + gap * ((l.v.last * l.i.last + p) / 2 * dt)

/-- A segment reading of a port: always its own, for per-cell decisions only where no switch of the port is closed or in the quiet
window, 24 µs to 48 µs after the frame's start (R225), and of the capture that runs (R227). -/
def segReading (s : State) (at_ : TB) (k : Fin 16) (v : Q) (p : Fin 4) (x : Bat) : Bat :=
  let inWindow := match s.lastFrame with
    | some t => decide (2400 ≤ (at_ - t).toNat) && decide ((at_ - t).toNat ≤ 4800)
    | none => false
  { x with seg := upd x.seg k (Acc.add v), quiet := if bleedClosed s p = 0 || inWindow then upd x.quiet k (Acc.add v) else x.quiet,
           capV := if capturing s p then (at_, k, v) :: x.capV else x.capV }

/-- A record of a bank shunt, mA, and of the capture that runs. -/
def shuntReading (s : State) (at_ : TB) (i : Q) (p : Fin 4) (x : Bat) : Bat :=
  { x with iBank := x.iBank.add i, capI := if capturing s p then (at_, i) :: x.capI else x.capI }

/-- A sensor's result: °C on die, the ratio to its bias for an NTC (R286). -/
def tempReading (i : Nat) (v : Nat) : Q := if i < 12 then -55 + 205 * (v : Q) / 4095 else (v : Q) / 4095

/-- One valid result taken into the measurement it is of. -/
def takeResult (g : Fin 4) (r : SetRun) (inp : Nat) (v : Nat) (s : State) : State :=
  match g.val with
  | 0 =>
    if inp < 8 then onSrc (fin8 inp) (fun x => { x with v := x.v.add (uni 90000 v) }) s
    else if inp < 16 then 
      let c := fin16 (inp - 8)
      let i := senseAmps s c v - s.phase[Fin.ofNat 28 (inp - 8)].offset
      onSrc (fin8 (inp - 8)) (fun x => { x with i := x.i.add i, pw := x.pw.add (mwOf x.v.last i) }) s
    else s
  | 1 =>
    if inp < 4 then onUsb (fin4 inp) (fun x => { x with vbus := x.vbus.add (uni 90000 v) }) s
    else if inp < 8 then 
      let i := senseAmps s (fin16 (4 + inp)) v - s.phase[Fin.ofNat 28 (4 + inp)].offset
      onUsb (fin4 (inp - 4)) (fun x => { x with i := x.i.add i, pw := x.pw.add (mwOf x.vbus.last i) }) s
    else if inp = 8 then { s with ride := { s.ride with meas := s.ride.meas.add (uni 90000 v) } }
    else if inp = 9 then { s with vcc := s.vcc.add (uni 6400 v) }
    else if inp = 10 then { s with vdrv := s.vdrv.add (uni 16000 v) }
    else if inp = 11 then { s with sapling := s.sapling.add (uni 6400 v) }
    else match r.load with
      | some p =>
        if inp < 28 then onLoad p (fun x => { x with v := x.v.add (uni 64000 v) }) s
        else if inp < 44 then
          let ohm : Q := (param s (0x760 + p.val) : Q) / 100
          let i : Q := if ohm = 0 then 0 else uni 250 v * 1000 / ohm
          onLoad p (fun x => { x with i := x.i.add i, pw := x.pw.add (mwOf x.v.last i) }) s
        else s
      | none => s
  | 2 =>
    if inp < 28 then onPhase (Fin.ofNat 28 inp) (fun x => { x with meas := x.meas.add (senseAmps s (chanOfPhase (Fin.ofNat 28 inp)) v - x.offset) }) s
    else if inp < 32 then
      let p := fin4 (inp - 28)
      let ohm : Q := (paramAt s 0x41C p.val : Q) / 1000
      onBat p (shuntReading s r.start (if ohm = 0 then 0 else bip 125 v * 1000 / ohm) p) s
    else if inp < 36 then onBat (fin4 (inp - 32)) (fun x => { x with vTaps := x.vTaps.add (uni 90000 v) }) s
    else s
  | _ =>
    if inp < 16 then
      match r.port with
      | some p => onBat p (segReading s r.start (fin16 inp) (uni (if cps s p = 1 then 5000 else 18000) v) p) s
      | none => s
    else if inp < 36 then onSensor (fin20 (inp - 16)) (fun x => { x with next := some (tempReading (inp - 16) v) }) s
    else if inp < 40 then onBat (fin4 (inp - 36)) (fun x => { x with vBank := x.vBank.add (uni 72000 v) }) s
    else s

/-- The load port's energy after a record of its pair. -/
def meterLoad (g : Fin 4) (r : SetRun) (gap : Nat) (before s : State) : State :=
  match g.val, r.load with
  | 1, some p =>
    if s.mbox.ready then
      let l := s.load[p]
      onLoad p (fun x => { x with energy := x.energy + loadEnergy s.group[g].lowPower gap before.load[p] l.v.last l.i.last }) s
    else s
  | _, _ => s

/-- The end of the temperature rotation: Warden evaluates it (R312). -/
def rotationEnd (g : Fin 4) (r : SetRun) (s : State) : State :=
  if g = 3 && r.rest.isEmpty && r.inputs.any (fun i => decide (16 ≤ i.val) && decide (i.val < 36)) then
    { s with therm := { s.therm with rotDue := true } }
  else s

/-- The valid results of a set. -/
def takeResults (g : Fin 4) (r : SetRun) (sl : List Slot) (s : State) : State :=
  each (r.inputs.zip sl) (fun iv s => if iv.2.valid then takeResult g r iv.1.val (iv.2.word.toNat % 4096) s else s) s

def execAssaySetComplete (g : Fin 4) (codes : List (BitVec 12)) (parityBad : BitVec 4) (s : State) : Host.Outcome State Fault Refusal :=
  .next (match s.group[g].running with
    | none => s
    | some r =>
      let sl := slotsOf s g r codes
      let gap := s.group[g].entries[r.entry].gap
      let s1 := onGroup g (fun x => { x with running := none, remain := if r.rest.isEmpty then x.remain else some r,
                                             entries := upd x.entries r.entry fun t => { t with gap := 0 } }) s
      let s2 := writeRecord g r sl parityBad false r.rest.isEmpty s1
      rotationEnd g r (meterLoad g r gap s (takeResults g r sl s2)))

/-! ### Urgent requests (R294, R295) -/

/-- The group of the other set of a linked pair that runs or was aborted. -/
def partners (s : State) (g : Fin 4) (r : SetRun) (pick : Group → Option SetRun) : List (Fin 4) :=
  (List.finRange 4).filter fun h => h ≠ g && (match pick s.group[h] with
    | some q => s.group[h].entries[q.entry].trigger = .linked g r.entry || s.group[g].entries[r.entry].trigger = .linked h q.entry
    | none => false)

def abortSet (g : Fin 4) (s : State) : State :=
  onGroup g (fun x => { x with running := none, aborted := x.running.map fun r => { r with restarted := true } }) s

/-- A young set is aborted, and with it the other set of its linked pair; a late one completes first. -/
def abortFor (g : Fin 4) (late : Bool) (s : State) : State :=
  match s.group[g].running with
  | some r =>
    if late || r.entry = 62 || r.entry = 63 then s else each (partners s g r Group.running) abortSet (abortSet g s)
  | none => s

/-- The inputs that the protection hardware requests (table of R294). -/
def hardwareInputs (g : Fin 4) (is : List (Fin 48)) : Bool :=
  match g.val, is.map (·.val) with
  | 0, [i] => decide (i < 8)
  | 1, [i] => decide (i < 4) || i = 8
  | 1, [i, j] => decide (12 ≤ i) && decide (i < 28) && j = i + 16
  | 2, [i] => decide (i < 28)
  | 3, [i] => decide (i < 16)
  | _, _ => false

/-- At most one request of a master is outstanding, the protection hardware's apart, which has inputs of its own (R294). -/
def execUrgentRequest (g : Fin 4) (hardware : Bool) (master : BitVec 4) (inputs : List (Fin 48)) (port : Option (Fin 4)) (late : Bool)
    (s : State) : Host.Outcome State Fault Refusal :=
  let x := s.group[g]
  let dup := !hardware && x.urgent.any fun u => !u.hardware && u.master = master
  .next (if assayRuns s g && !dup && (!hardware || hardwareInputs g inputs) && inputs.length ≤ kOf s g && inputs.all (fun i => inputDefined g i.val) then
      abortFor g late (onGroup g (fun x => { x with urgent := x.urgent ++ [⟨hardware, master, inputs, port⟩] }) s)
    else s)

/-- The aborted set samples again with its entry, tags and count; a plain set wider than k is suspended instead (R309). -/
def restartSet (g : Fin 4) (s : State) : State :=
  match s.group[g].aborted with
  | none => s
  | some r =>
    if kOf s g < r.inputs.length then
      if s.group[g].entries[r.entry].rotation then
        onGroup g (fun x => { x with aborted := none, remain := some { r with rest := r.inputs ++ r.rest, restTag := r.restTag - r.inputs.length } }) s
      else onGroup g (fun x => { x with aborted := none, entries := upd x.entries r.entry fun t => { t with suspended := true } }) s
    else
      let again := { r with convs := healthyConvs s g, restarted := true, start := s.tb }
      onGroup g (fun x => { x with aborted := none, running := some again, selected := r.port.getD x.selected }) s

def execAssaySetRestart (g : Fin 4) (s : State) : Host.Outcome State Fault Refusal :=
  .next (match s.group[g].aborted with
    | none => s
    | some r =>
      let ps := partners s g r Group.aborted
      let ready (h : Fin 4) : Bool := s.group[h].running.isNone && s.group[h].urgent.isEmpty
      if ready g && ps.all ready then each ps restartSet (restartSet g s) else s)

/-! ### Calibration and checks (R300 to R304) -/

/-- Nominal codes of the references 0 V, 1.250 V and 2.250 V, in codes of 4096 to 2.500 V. -/
def refNominal : List Q := [0, 2048, 18432 / 5]

def refOk (nominal : Q) (v : Nat) : Bool := decide (((v : Q) - nominal).abs ≤ 16)

/-- A converter's slot in the records of its group. -/
def slotOf (s : State) (c : Fin 16) : Nat := (healthyConvs s (convGroup c)).findIdx (· = c)

/-- One conversion of one converter as a record of entry 60 or 61; the slot of a failed input is not valid (R304). -/
def singleRecord (c : Fin 16) (e : Fin 64) (input : Nat) (code : BitVec 12) (test : Bool) (s : State) : State :=
  let g := convGroup c
  let (v, o) := corrected s.conv[c] code
  let sl := (List.range 4).map fun i => if i = slotOf s c && !s.group[g].failedIn.getLsbD (fin48 input).val then ({ word := BitVec.ofNat 16 v, valid := true, range := o } : Slot) else {}
  let s1 := onGroup g (fun x => { x with entries := upd x.entries e fun t => { t with count := t.count + 1 } }) s
  writeRecord g { entry := e, inputs := [fin48 input], convs := healthyConvs s g, tags := [0],
                  count := s1.group[g].entries[e].count, start := s.tb } sl 0 test true s1

/-- A failed check of a converter: the second in succession declares it failed; one in re-admission keeps its fault (R303, R494). -/
def checkFailed (c : Fin 16) (s : State) : State :=
  let x := s.conv[c]
  if !x.healthy then (if x.readmit then finding 0x30 8 c.val 0 0 s else s)
  else if 1 ≤ x.fails then convFailed c s
  else onConv c (fun x => { x with fails := x.fails + 1 }) s

/-- Entries as wide as k again. -/
def unsuspend (g : Fin 4) (s : State) : State :=
  onGroup g (fun x => { x with entries := vmap x.entries fun t => if t.inputs.length ≤ kOf s g then { t with suspended := false } else t }) s

/-- A converter that passes after its clear returns, and with it a lost group (R303, R306). -/
def convReturns (c : Fin 16) (s : State) : State :=
  let g := convGroup c
  let s1 := closeFor 0x30 8 (byte c.val) 2 (onConv c (fun x => { x with healthy := true, readmit := false, fails := 0, parity := [] }) s)
  let s2 := if s1.group[g].lost then closeFor 0x32 9 (byte g.val) 2 (regainGroup g s1) else s1
  unsuspend g s2

/-- Plain entries wider than the healthy converters are suspended, and their owner told (R306). -/
def suspendEntry (g : Fin 4) (e : Fin 64) (s : State) : State :=
  let t := s.group[g].entries[e]
  if t.trigger ≠ .off && !t.rotation && !t.suspended && kOf s g < t.inputs.length then
    pushEvent 0x0801 [byte g.val, byte e.val, byte (kOf s g)]
      (onGroup g (fun x => { x with entries := upd x.entries e fun t => { t with suspended := true }, waiting := x.waiting.filter (· ≠ e) }) s)
  else s

def suspendWide (g : Fin 4) (s : State) : State := each ((List.range 60).map fin64) (suspendEntry g) s

/-- A conversion of references is due once every 10 ms, in idle time of the group; after 10 ms of waiting it goes before all but
urgent requests (R291, R300). -/
def calibrationDue (s : State) (c : Fin 16) : Bool :=
  let x := s.group[convGroup c]
  let idle := x.waiting.isEmpty && x.remain.isNone
  x.running.isNone && x.urgent.isEmpty && x.aborted.isNone && passed s s.conv[c].calTb (if idle then 10 else 20)

/-- R300: the references move the corrections one eighth of the way; a reference outside its window is a failed check. The
implied gain and offset are those of the outer two references (log 23). -/
def execBackgroundCalibration (c : Fin 16) (ref0 ref1 ref2 : BitVec 12) (s : State) : Host.Outcome State Fault Refusal :=
  let x := s.conv[c]
  let rs := [ref0, ref1, ref2]
  let ok := (rs.zip refNominal).all fun (r, n) => refOk n (corrected x r).1
  let s1 := each (rs.zipIdx) (fun (r, i) => singleRecord c 60 (45 + i) r false) s
  let span : Q := (ref2.toNat : Q) - ref0.toNat
  let gain : Q := if span = 0 then x.gain else (18432 / 5) / span
  let off : Q := -(gain * ref0.toNat)
  .next (if assayRuns s (convGroup c) && x.healthy && calibrationDue s c then
      let s2 := onConv c (fun x => { x with calTb := s.tb }) s1
      if ok then onConv c (fun x => { x with gain := x.gain + (gain - x.gain) / 8, offset := x.offset + (off - x.offset) / 8 }) s2
      else suspendWide (convGroup c) (checkFailed c s2)
    else s)

/-- A check passes: three test-DAC codes within 8 LSB, three references within their windows. -/
def checkPasses (x : Conv) (codes : List (BitVec 12)) : Bool :=
  let v (i : Nat) : Nat := (corrected x (codes.getD i 0)).1
  let dac (i : Nat) (n : Q) : Bool := decide (((v i : Q) - n).abs ≤ 8)
  dac 0 512 && dac 1 2048 && dac 2 3584 && refOk 0 (v 3) && refOk 2048 (v 4) && refOk (18432 / 5) (v 5)

/-- One converter of a check: its six records, then the verdict. -/
def checkConv (codes : List (List (BitVec 12))) (c : Fin 16) (s : State) : State :=
  let l := codes.getD (c.val % 4) []
  let x := s.conv[c]
  if !x.healthy && !x.readmit then s
  else
    let s1 := each (l.zipIdx) (fun (r, i) => singleRecord c 61 (if i < 3 then 44 else 42 + i) r (decide (i < 3))) s
    if checkPasses x l then
      if x.healthy then onConv c (fun x => { x with fails := 0 }) s1 else convReturns c s1
    else checkFailed c s1

/-- R303: once per check interval, put off while a relaxation capture runs (R309). -/
def execConverterCheck (g : Fin 4) (codes : List (List (BitVec 12))) (s : State) : Host.Outcome State Fault Refusal :=
  .next (if s.clk.vcc && wardenRuns s && !captureRuns s g && passed s s.group[g].checkTb (wardenKey s 0x801 : Q) then
      suspendWide g (each (groupConvs g) (checkConv codes) (onGroup g (fun x => { x with checkTb := s.tb }) s))
    else s)

/-- R304: an input's path fails at the second failed check in succession; a sensor's input fails its sensor, a segment's is an
open tap (R312). -/
def pathFailed (g : Fin 4) (i : Fin 48) (s : State) : State :=
  let s1 := finding 0x31 10 (48 * g.val + i.val) 0 0 (onGroup g (fun x => { x with pathFails := putBit x.pathFails i.val false }) s)
  if g.val = 3 then
    if i.val < 16 then
      each ((List.finRange 4).filter fun p => tapsWatched s1 p && decide (i.val < s1.bat[p].nSeg)) (fun p => tapFault p (putBit 0 i.val true)) s1
    else if i.val < 36 then
      (if s1.therm.sensors[fin20 (i.val - 16)].failed then s1 else failSensor (fin20 (i.val - 16)) 3 s1)
    else s1
  else s1

def pathVerdict (g : Fin 4) (i : Fin 48) (pass : Bool) (s : State) : State :=
  let x := s.group[g]
  let failed := x.failedIn.getLsbD i.val
  let again := x.readmitIn.getLsbD i.val
  if pass then
    let s1 := onGroup g (fun y => { y with pathFails := putBit y.pathFails i.val false }) s
    if failed && again then
      closeFor 0x31 10 (byte (48 * g.val + i.val)) 2
        (onGroup g (fun y => { y with failedIn := putBit y.failedIn i.val false, readmitIn := putBit y.readmitIn i.val false }) s1)
    else s1
  else if failed then (if again then finding 0x31 10 (48 * g.val + i.val) 0 0 s else s)
  else if x.pathFails.getLsbD i.val then pathFailed g i s
  else onGroup g (fun y => { y with pathFails := putBit y.pathFails i.val true }) s

/-- The inputs of a group that have a path, and the one after another in rotation (R304). -/
def pathInputs (g : Fin 4) : List (Fin 48) := (List.finRange 48).filter fun i => decide (i.val < 44) && inputDefined g i.val
def pathAfter (g : Fin 4) (i : Fin 48) : Fin 48 := ((pathInputs g).find? fun j => decide (i < j)).getD 0

/-- One slot of the rotation, so that each input is checked once per path-check interval. -/
def pathSlot (s : State) (g : Fin 4) : Q := (wardenKey s 0x802 : Q) * 1000 / (pathInputs g).length

def execPathCheck (g : Fin 4) (code : BitVec 12) (s : State) : Host.Outcome State Fault Refusal :=
  let input := s.group[g].pathNext
  .next (if s.clk.vcc && wardenRuns s && !captureRuns s g && passed s s.group[g].pathTb (pathSlot s g) then
      match (healthyConvs s g).head? with
      | some c =>
        let v := (corrected s.conv[c] code).1
        let s1 := onGroup g (fun x => { x with pathTb := s.tb, pathNext := pathAfter g input }) s
        pathVerdict g input (decide (((v : Q) - 2048).abs ≤ 16)) (singleRecord c 61 input.val code true s1)
      | none => s
    else s)

end Sys2Proof.Machine
end

