-- ==== Sys2Proof/Machine/Hash.lean ====
section
/-! DEFINITION. SHA-256 and HMAC-SHA-256, which R469, R475, R482, R485 and R451 name.

The hash is written as two recurrences: the eight working words of FIPS 180-4 are the last four terms of a sequence x
(its a to d) and of a sequence y (its e to h), and the message schedule is a window of sixteen terms that moves one
word a round. -/

namespace Sys2Proof.Machine
open Sys2Proof

/-! ### Constants of FIPS 180-4, eight words to a number -/

/-- The eight words a 256-bit number spells, most significant first. -/
def octet (n : Nat) : List Word := [7, 6, 5, 4, 3, 2, 1, 0].map fun i => BitVec.ofNat 32 (n >>> (32 * i))

/-- The constant of each round. -/
def roundConst : List Word :=
  octet 0x428a2f9871374491b5c0fbcfe9b5dba53956c25b59f111f1923f82a4ab1c5ed5 ++
  octet 0xd807aa9812835b01243185be550c7dc372be5d7480deb1fe9bdc06a7c19bf174 ++
  octet 0xe49b69c1efbe47860fc19dc6240ca1cc2de92c6f4a7484aa5cb0a9dc76f988da ++
  octet 0x983e5152a831c66db00327c8bf597fc7c6e00bf3d5a7914706ca635114292967 ++
  octet 0x27b70a852e1b21384d2c6dfc53380d13650a7354766a0abb81c2c92e92722c85 ++
  octet 0xa2bfe8a1a81a664bc24b8b70c76c51a3d192e819d6990624f40e3585106aa070 ++
  octet 0x19a4c1161e376c082748774c34b0bcb5391c0cb34ed8aa4a5b9cca4f682e6ff3 ++
  octet 0x748f82ee78a5636f84c878148cc7020890befffaa4506cebbef9a3f7c67178f2

/-- The digest of nothing yet. -/
def freshDigest : List Word := octet 0x6a09e667bb67ae853c6ef372a54ff53a510e527f9b05688c1f83d9ab5be0cd19

/-! ### One block -/

/-- The sum modulo 2 of a word turned right by each amount. -/
def turned (x : Word) (ns : List Nat) : Word := ns.foldl (fun r n => r ^^^ x.rotateRight n) 0

/-- The running block: the next sixteen schedule words, and the last four terms of x and y, newest first. -/
structure Lanes where
  sched : List Word
  x : List Word
  y : List Word
  deriving DecidableEq, Repr

/-- Puts one term in front of a sequence of which four are kept. -/
def pushTerm (t : Word) (l : List Word) : List Word := t :: l.take 3

/-- One round: the next terms of both sequences, and the schedule moved on by a word. -/
def Lanes.advance (r : Lanes) (k : Word) : Lanes :=
  let nth := fun (l : List Word) i => l.getD i 0
  let pick := nth r.y 2 ^^^ (nth r.y 0 &&& (nth r.y 1 ^^^ nth r.y 2))
  let most := (nth r.x 0 &&& nth r.x 1) ||| (nth r.x 2 &&& (nth r.x 0 ||| nth r.x 1))
  let mixed := k + nth r.sched 0 + nth r.y 3 + pick + turned (nth r.y 0) [6, 11, 25]
  let early := turned (nth r.sched 1) [7, 18] ^^^ (nth r.sched 1 >>> 3)
  let late := turned (nth r.sched 14) [17, 19] ^^^ (nth r.sched 14 >>> 10)
  { sched := r.sched.drop 1 ++ [early + late + nth r.sched 0 + nth r.sched 9],
    x := pushTerm (mixed + most + turned (nth r.x 0) [2, 13, 22]) r.x,
    y := pushTerm (mixed + nth r.x 3) r.y }

/-- A number of big-endian bytes, as their list's value. -/
def beValue (bs : List Byte) : Nat := bs.foldl (fun n b => 256 * n + b.toNat) 0

/-- The digest so far after one more block of 64 bytes. -/
def absorb (d : List Word) (block : List Byte) : List Word :=
  let sched := (List.range 16).map fun i => BitVec.ofNat 32 (beValue (slice block (4 * i) 4))
  let r := roundConst.foldl Lanes.advance { sched, x := d.take 4, y := d.drop 4 }
  List.zipWith (· + ·) d (r.x ++ r.y)

/-! ### Messages -/

/-- n big-endian bytes. -/
def be (n : Nat) (v : Nat) : List Byte := (le n (v : Int)).reverse

/-- A message with its closing bit, zeros and bit length, a whole number of blocks. -/
def closed (bs : List Byte) : List Byte :=
  let blocks := (bs.length + 9 + 63) / 64
  pad (64 * blocks - 8) (bs ++ [0x80]) ++ be 8 (8 * bs.length)

/-- The SHA-256 digest, 32 bytes. -/
def sha256 (bs : List Byte) : List Byte :=
  let m := closed bs
  let d := (List.range (m.length / 64)).foldl (fun d i => absorb d (slice m (64 * i) 64)) freshDigest
  d.flatMap fun w => be 4 w.toNat

/-- HMAC-SHA-256 of a key of at most 64 bytes. -/
def hmac (key msg : List Byte) : List Byte :=
  let masked := fun (b : Byte) => (pad 64 key).map (· ^^^ b)
  sha256 (masked 0x5C ++ sha256 (masked 0x36 ++ msg))

end Sys2Proof.Machine
end

