-- ==== Sys2Proof/Machine/Otp.lean ====
section
/-! DEFINITION. The one-time memory: regions, votes, the C-region's wires, locks, keys, slots and their checks, and the
layering of an image (chapter 18). A word that the last read pass found marginal is marginal in every bit (log 25). -/

namespace Sys2Proof.Machine
open Sys2Proof

/-! ### Words and regions (R458 to R460) -/

def otpByte (s : State) (a : Nat) : Byte := memRead s.otp.mem a
def otpBytes (s : State) (a n : Nat) : List Byte := memReadN s.otp.mem a n
def otpWord (s : State) (a : Nat) : Word := BitVec.ofNat 32 (ofLe (otpBytes s a 4))

/-- The word at a byte offset is not firm. -/
def marginalAt (s : State) (a : Nat) : Bool := s.otp.marginal.contains (a / 4 * 4)

/-- A marginal word within a range of bytes. -/
def marginalIn (s : State) (a n : Nat) : Bool := s.otp.marginal.any fun m => decide (a / 4 * 4 ≤ m) && decide (m < a + n)

/-- A burn: bits only go from 0 to 1 (R458). -/
def burnByte (a : Nat) (b : Byte) (s : State) : State :=
  { s with otp := { s.otp with mem := memWrite s.otp.mem a (memRead s.otp.mem a ||| b) } }

def burnBytes : Nat → List Byte → State → State
  | _, [], s => s
  | a, b :: bs, s => burnBytes (a + 1) bs (burnByte a b s)

def burnWord (a : Nat) (w : Word) (s : State) : State := burnBytes a (le32 w) s

/-- Region code of a byte offset, as event 0x0B05 gives it, and the region's first byte. -/
def regionOf (a : Nat) : Nat :=
  if a < 0x800 then 0 else if a < 0x900 then 1 else if a < 0xB00 then 2 else if a < 0xD00 then 3 else if a < 0x7D00 then 4 else 5

def regionStart (r : Nat) : Nat :=
  match r with
  | 0 => 0 | 1 => 0x800 | 2 => 0x900 | 3 => 0xB00 | 4 => 0xD00 | _ => 0x7D00

/-! ### Votes (R464) -/

/-- A triplicated word: its value, and the bits no two firm copies agree on. -/
def vote (s : State) (offs : List Nat) : Word × Word :=
  match (offs.filter fun a => !marginalAt s a).map (otpWord s) with
  | [a, b, c] => ((a &&& b) ||| (a &&& c) ||| (b &&& c), 0)
  | [a, b] => (a &&& b, a ^^^ b)
  | _ => (0, 0xFFFFFFFF)

def copiesC (w : Nat) : List Nat := [0x800 + 4 * w, 0x840 + 4 * w, 0x880 + 4 * w]

/-- Inversion mask of a logical word (table "C-region words"). -/
def inversion (w : Nat) : Word :=
  match w with
  | 3 => 0x000FFFFF | 4 => 0xFFFFFFFF | _ => 0

/-- A logical word's wire value and its marginal bits. -/
def voteC (s : State) (w : Nat) : Word × Word :=
  let (v, m) := vote s (copiesC w)
  (v ^^^ inversion w, m)

/-! ### The wires (R381, R463 to R465) -/

/-- Bits of a shadow word that are not reserved (R381). -/
def shadowMask (w : Nat) : Word :=
  match w with
  | 0 => 0x0F0F0F0F | 3 => 0x000FFFFF | _ => 0xFFFFFFFF

def setWire (w : Fin 6) (v : Word) (s : State) : State := { s with wires := { s.wires with words := upd s.wires.words w fun _ => v } }

/-- The cell word of a port, with an OVP code put in. -/
def withOvp (s : State) (p : Fin 4) (code : Nat) : State :=
  let w : Fin 6 := if p.val < 2 then 1 else 2
  let sh := 16 * (p.val % 2) + 8
  let m : Word := (0xFF : Word) <<< sh
  setWire w ((s.wires.words[w] &&& ~~~m) ||| (BitVec.ofNat 32 code <<< sh)) s

/-- The lowest threshold of a list of codes. -/
def lowestOvp (s : State) (p : Fin 4) (l : List Nat) : Option Nat :=
  l.foldl (fun b c => match b with
    | none => some c
    | some d => if vOvp (withOvp s p c) p < vOvp (withOvp s p d) p then some c else b) none

/-- The conservative OVP code: among the codes the marginal bits allow, the lowest threshold that meets R184. -/
def safeOvp (s : State) (p : Fin 4) (code marg : Nat) : Nat :=
  let fits := (List.range 256).filter fun c => (BitVec.ofNat 8 c ^^^ BitVec.ofNat 8 code) &&& ~~~(BitVec.ofNat 8 marg) = 0
  let g : Nat → Int := fun k => if k = 0x47D then 50 else 0
  let good := fits.filter fun c => chargeOrderOk (withOvp s p c) g p
  ((lowestOvp s p good).orElse fun _ => lowestOvp s p fits).getD code

/-- Conservative values of word 0: marginal chemistry disables its port, a marginal flag reads 1. -/
def safeWord0 (v m : Word) : Word := v ||| (m &&& 0x08080808)

/-- Words 1 and 2: a marginal SEGS reads 0; OVP follows in `safeCells`. -/
def safeSegs (v m : Word) : Word :=
  let lo : Word := if m &&& 0x1F ≠ 0 then 0x1F else 0
  let hi : Word := if m &&& 0x1F0000 ≠ 0 then 0x1F0000 else 0
  v &&& ~~~(lo ||| hi)

def safeWord3 (v m : Word) : Word :=
  ((v &&& ~~~(m &&& 0xFFFF)) ||| (if m &&& 0x70000 ≠ 0 then 0x70000 else 0)) ||| (m &&& 0x80000)

/-- Ports whose chemistry or CPS bits are marginal (R464). -/
def forcedPorts (m0 m1 m2 : Word) : BitVec 4 :=
  BitVec.ofNat 4 (bits ((List.range 4).map fun p =>
    field m0 (8 * p) 3 ≠ 0 || field (if p < 2 then m1 else m2) (16 * (p % 2) + 5) 3 ≠ 0))

/-- The words selected and armed in the shadows, and those of them that the host has written: the others hold the
C-region's own value (R13, R381). -/
def shadowed (s : State) (w : Nat) : Bool := s.aon.arm && s.aon.shSelect.getLsbD w
def shadowTaken (s : State) (w : Nat) : Bool := shadowed s w && s.aon.shHeld.getLsbD w

/-- A shadow word as the host reads it. -/
def shadowWord (s : State) (w : Nat) : Word :=
  if s.aon.shHeld.getLsbD w then s.aon.shadow.toList.getD w 0 &&& shadowMask w else s.wires.words.toList.getD w 0

/-- OVP codes of the cell words replaced where their bits are marginal. -/
def safeCells (m1 m2 : Word) (s : State) : State :=
  each (List.finRange 4) (fun p s =>
    let m := field (if p.val < 2 then m1 else m2) (16 * (p.val % 2) + 8) 8
    if m = 0 then s else withOvp s p (safeOvp s p (ovpField s p) m)) s

/-- The guard of R178: a charge-direction stop of every port whose primary flag is on its wire. -/
def guardPrimary (s : State) : State :=
  each (List.finRange 4) (fun p => onChan (chanOfBat p) (if primaryWire s p then addStop .primaryFlag else dropStop .primaryFlag)) s

/-- The C-region voted, its conservative values and the armed shadows applied, and sent (R381, R464, R465). -/
def sendC (s : State) : State :=
  let v (w : Nat) := voteC s w
  let keep (w : Nat) (m : Word) : Word := if shadowTaken s w then 0 else m
  let m0 := keep 0 (v 0).2; let m1 := keep 1 (v 1).2; let m2 := keep 2 (v 2).2; let m3 := keep 3 (v 3).2
  let m4 := keep 4 (v 4).2; let m5 := keep 5 (v 5).2
  let pick (w : Nat) (x : Word) : Word := if shadowTaken s w then s.aon.shadow.toList.getD w 0 &&& shadowMask w else x &&& shadowMask w
  let safe := pick 5 ((v 5).1 ||| m5)
  let words : Vector Word 6 := ⟨#[pick 0 (safeWord0 (v 0).1 m0), pick 1 (safeSegs (v 1).1 m1), pick 2 (safeSegs (v 2).1 m2),
    pick 3 (safeWord3 (v 3).1 m3), pick 4 (((v 4).1 &&& ~~~m4) ||| (m4 &&& safe)), safe], rfl⟩
  let sec := (v 6).1 ||| (v 6).2
  let w : Wires := { words := words, debugLock := sec.getLsbD 0, secure := sec.getLsbD 1,
                     shadowActive := (List.range 6).any (shadowed s), forcedOff := forcedPorts m0 m1 m2 }
  let cm := ((List.range 7).map v).any fun x => x.2 ≠ 0
  guardPrimary (safeCells m1 m2 { s with wires := w, otp := { s.otp with cMarg := cm } })

/-- Bits of the C-region that take a conservative value, as (logical word, bit). -/
def marginalBits (s : State) : List (Nat × Nat) :=
  (List.range 7).flatMap fun w => ((List.range 32).filter fun b => (voteC s w).2.getLsbD b && (decide (w = 6 ∧ b < 2) || decide (w < 6) && (shadowMask w).getLsbD b)).map fun b => (w, b)

/-- R462 at a background pass: primary flags and OVP fields take their conservative values at once. -/
def reviseC (s : State) : State :=
  let m (w : Nat) : Word := if shadowTaken s w && s.wires.shadowActive then 0 else (voteC s w).2
  let s1 := setWire 0 (s.wires.words[(0 : Fin 6)] ||| (m 0 &&& 0x08080808)) s
  guardPrimary (safeCells (m 1) (m 2)
    { s1 with otp := { s1.otp with cMarg := s1.otp.cMarg || ((List.range 7).any fun w => (voteC s w).2 ≠ 0) } })

/-! ### Locks (R467): write locks 0 to 4 and read locks 5 to 9, each a pair of fuse bytes (log 24) -/

def lockAddr (l : Nat) : Nat := 0x7D00 + 2 * l
def lockBlown (s : State) (l : Nat) : Bool :=
  otpByte s (lockAddr l) ≠ 0 || otpByte s (lockAddr l + 1) ≠ 0 || marginalAt s (lockAddr l)

def burnLock (l : Nat) (s : State) : State := burnBytes (lockAddr l) [1, 1] s

/-! ### Keys (R475 to R477) -/

def keyBase (i : Nat) : Nat := 0x900 + 0x24 * i
def controlByte (s : State) (i : Nat) : Byte := otpByte s (keyBase i + 0x20)

/-- A position's digest: position 0 holds Baeno's (R476). -/
def digestOf (s : State) (i : Nat) : List Byte := if i = 0 then (List.range 32).map Config.baenoDigest else otpBytes s (keyBase i) 32

def keyHeld (s : State) (i : Nat) : Bool := decide (i < 4) && otpByte s (keyBase i + 0x23) = 0xA5 && !marginalIn s (keyBase i) 0x24
def keyBlank (s : State) (i : Nat) : Bool := (otpBytes s (keyBase i) 0x24).all (· = 0) && !marginalIn s (keyBase i) 0x24

/-- The revocation word is triplicated; a marginal bit counts as revoked. -/
def keyRevoked (s : State) (i : Nat) : Bool := let (v, m) := vote s [0x990, 0x994, 0x998]; (v ||| m).getLsbD i
def imageUse (s : State) (i : Nat) : Bool := (controlByte s i).getLsbD 0
def patchUse (s : State) (i : Nat) : Bool := (controlByte s i).getLsbD 1
def imageKey (s : State) (i : Nat) : Bool := keyHeld s i && !keyRevoked s i && imageUse s i
def patchKeyOk (s : State) (i : Nat) : Bool := keyHeld s i && !keyRevoked s i && patchUse s i
def anyImageKey (s : State) : Bool := (List.range 4).any (imageKey s)

def commitBytes : List Byte := [0x3C, 0xA5, 0xC3, 0x5A]

/-- The attestation and image-MAC keys are provisioned (R479 to R482). -/
def keysProvisioned (s : State) : Bool := otpBytes s 0xB40 4 = commitBytes
def macFirm (s : State) : Bool := keysProvisioned s && !marginalIn s 0xB20 0x20
def withdrawnFuse (s : State) : Bool := otpByte s 0x7D14 ≠ 0 || marginalAt s 0x7D14
def attestable (s : State) : Bool :=
  keysProvisioned s && otpBytes s 0x9DC 4 = commitBytes && !withdrawnFuse s && !s.otp.withdrawn && !s.otp.scalarBad

/-- The image-MAC key, descrambled (R479). -/
def macKey (s : State) : List Byte := (otpBytes s 0xB20 32).mapIdx fun i b => b ^^^ Config.keyMask (32 + i)

/-- The order of the P-256 group. -/
def p256Order : Nat := 0xffffffff00000000ffffffffffffffffbce6faada7179e84f3b9cac2fc632551

/-- A drawn attestation scalar that cannot be used (R481). -/
def scalarUnfit (bs : List Byte) : Bool := beValue bs = 0 || decide (p256Order ≤ beValue bs)

/-- What the read port at 0x7000_0000 returns of a word: 0 for Hallmark secret, and for a read-locked region outside the boot window
(R467). What Anvil needs of a region after its boot window it has read in it (log 127). -/
def otpPort (s : State) (a : Nat) : Word :=
  let lock := match regionOf a with | 0 => some 5 | 1 => some 6 | 2 => some 7 | 4 => some 9 | _ => none
  if regionOf a = 3 then 0
  else if !s.otp.window && (lock.elim false (lockBlown s)) then 0
  else otpWord s a

/-- The pass that falls due at each multiple of 3600 s of TB has not been made yet (R461). -/
def hourOf (s : State) : Nat := (s.tb.toNat + frameStep s) / 360000000000
def passOwed (s : State) : Bool := s.otp.passDue || decide (s.otp.hour < hourOf s)

/-- R480: a blank, unlocked Hallmark secret is provisioned: the scrambled keys and their commit, then the identity and its. -/
def provision (s : State) : State :=
  if (otpBytes s 0xB00 0x200).all (· = 0) && !marginalIn s 0xB00 0x200 && !lockBlown s 3 then
    let keys := (List.range 64).map fun i => Config.drawn i ^^^ Config.keyMask i
    let s1 := burnBytes 0x9DC commitBytes
      (burnBytes 0x99C (pad 64 Config.identity) (burnBytes 0xB40 commitBytes (burnBytes 0xB00 keys s)))
    { s1 with otp := { s1.otp with scalarBad := scalarUnfit ((List.range 32).map Config.drawn) } }
  else s

/-! ### Image records (R400, R469) -/

structure Rec where
  key  : Half
  size : Nat
  val  : List Byte
  deriving DecidableEq, Repr

/-- Records back to back; none if one overruns or has a wrong SIZE. -/
def parseRecs : Nat → List Byte → Option (List Rec)
  | _, [] => some []
  | 0, _ => none
  | n + 1, bs =>
    let sz := (byteAt bs 2).toNat
    if (sz = 1 || sz = 2 || sz = 4 || sz = 8) && 3 + sz ≤ bs.length then
      (parseRecs n (bs.drop (3 + sz))).map fun l => { key := BitVec.ofNat 16 (ofLe (bs.take 2)), size := sz, val := (bs.drop 3).take sz } :: l
    else none

def enrolKey (k : Half) : Bool := 0x0B10 ≤ k && k ≤ 0x0B14

/-- VALUE of a record, by the sign of its key's range. -/
def recValue (s : State) (r : Rec) : Int := if keySigned s r.key then ofLeS r.val else (ofLe r.val : Int)

/-- An image's enrolment: position, control byte and digest; the five keys or none of them (R478). -/
structure Enrol where
  pos    : Nat
  ctrl   : Byte
  digest : List Byte
  deriving DecidableEq, Repr

def findRec (l : List Rec) (k : Half) : Option Rec := l.reverse.find? fun r => r.key = k

def enrolOf (l : List Rec) : Option Enrol :=
  match findRec l 0x0B10, findRec l 0x0B11, findRec l 0x0B12, findRec l 0x0B13, findRec l 0x0B14 with
  | some a, some b, some c, some d, some e =>
    let v := (byteAt e.val 0).toNat
    some { pos := v % 4, ctrl := byte (v / 4 % 4), digest := a.val ++ b.val ++ c.val ++ d.val }
  | _, _, _, _, _ => none

/-- The five keys appear all or not at all, with their SIZEs, and name a position of 1 to 3. -/
def enrolFormOk (l : List Rec) : Bool :=
  let e := l.filter fun r => enrolKey r.key
  e.isEmpty || (e.all (fun r => r.size = if r.key = 0x0B14 then 1 else 8) &&
    (match enrolOf l with | some x => decide (1 ≤ x.pos) | none => false))

/-! ### Image checks (R470) on its 2048 bytes -/

def imgElen (bs : List Byte) : Nat := ofLe (slice bs 6 2)
def imgRecs (bs : List Byte) : Option (List Rec) := parseRecs 1936 (slice bs 16 (imgElen bs))
def imgSigned (bs : List Byte) : Bool := byteAt bs 0xC = 1
def imgKey (bs : List Byte) : Nat := (byteAt bs 0xD).toNat
def imgIdent (bs : List Byte) : Word := BitVec.ofNat 32 (ofLe (slice bs 8 4))

/-- Check 3. -/
def formatOk (bs : List Byte) : Bool :=
  ofLe (slice bs 0 4) = 0x1D0C7148 && ofLe (slice bs 4 2) = 1 && decide (imgElen bs ≤ 1936) &&
  (slice bs (16 + imgElen bs) (0x790 - imgElen bs)).all (· = 0) && (slice bs 0x7F0 8).all (· = 0) &&
  (match imgRecs bs with
   | some l => l.length = ofLe (slice bs 0xE 2) && enrolFormOk l
   | none => false)

/-- Check 4. -/
def crcFits (bs : List Byte) : Bool := (crc32 (slice bs 0 0x7E0)).toNat = ofLe (slice bs 0x7F8 4)

/-- Check 5. -/
def macFits (s : State) (bs : List Byte) : Bool := (hmac (macKey s) (slice bs 0 0x7E0)).take 16 = slice bs 0x7E0 16

/-- The digest an image's signature is judged against: the named position's, or its own enrolment's (R470 check 6). -/
def signerDigest (s : State) (bs : List Byte) : Option (List Byte) :=
  let i := imgKey bs
  if imageKey s i then some (digestOf s i)
  else if !anyImageKey s then
    match imgRecs bs with
    | some l => (enrolOf l).bind fun e => if e.pos = i then some e.digest else none
    | none => none
  else none

/-- Check 6. -/
def signatureOk (s : State) (bs : List Byte) : Bool :=
  if imgSigned bs then
    match signerDigest s bs with
    | some d => Config.sigVerifies d (sha256 (slice bs 0 0x7A0)) (slice bs 0x7A0 64)
    | none => false
  else !s.wires.secure

/-! ### Slots (R469 to R473) -/

def slotBase (n : Nat) : Nat := 0xD00 + 0x800 * (n - 1)
def slotBytes (s : State) (n : Nat) : List Byte := otpBytes s (slotBase n) 2048

/-- Consumed: any word non-blank at the lax margin, where a marginal word reads 1s. -/
def slotConsumed (s : State) (n : Nat) : Bool :=
  s.otp.mem.any (fun c => decide (slotBase n ≤ c.1) && decide (c.1 < slotBase n + 2048)) || marginalIn s (slotBase n) 2048

def consumedMask (s : State) : BitVec 14 := BitVec.ofNat 14 (bits ((List.range 14).map fun i => slotConsumed s (i + 1)))
def slotsExhausted (s : State) : Bool := slotConsumed s 14

/-- Words of a slot that are not blank. -/
def nonBlankWords (s : State) (n : Nat) : Nat :=
  ((List.range 512).filter fun w => otpWord s (slotBase n + 4 * w) ≠ 0).length

/-- The first check of R470 that a slot fails, 0 none. -/
def slotCheck (s : State) (n : Nat) : Nat :=
  let bs := slotBytes s n
  if slice bs 0x7FC 4 ≠ commitBytes then 1
  else if marginalIn s (slotBase n) 2048 then 2
  else if !formatOk bs then 3
  else if !crcFits bs then 4
  else if macFirm s && !macFits s bs then 5
  else if !signatureOk s bs then 6
  else 0

def highestConsumed (s : State) : Nat := ((List.range 14).map (· + 1)).foldl (fun m n => if slotConsumed s n then n else m) 0

/-- The slot that a burn would take (R471 step 2). -/
def nextSlot (s : State) : Option Nat := if highestConsumed s < 14 then some (highestConsumed s + 1) else none

/-- The highest-numbered slot valid now. -/
def highestValid (s : State) : Nat := ((List.range 14).map (· + 1)).foldl (fun m n => if s.otp.validSlots.getLsbD (n - 1) then n else m) 0

/-! ### Layering an image (R474) -/

/-- The formation that an image holds decides which channels are of a formed gang (log 26). -/
def withLayer (s : State) (l : List (Half × Int)) : State := { s with par := { s.par with slot := l, trial := none, host := [] } }

/-- A dependency fails only against the OVP threshold of the C-region (R36). -/
def ovpConflict (s : State) (g : Nat → Int) (k : Half) : Bool :=
  match owner k with
  | .bat p => depOk (withOvp s p 255) g k
  | _ => false

/-- Why an entry is ignored: the causes of the table "Ignored entry causes"; 0 applies it. An entry that R36 rules out has that cause
whatever else is wrong with it. -/
def entryCause (s : State) (form : State) (l : List (Half × Int)) (r : Rec) : Nat :=
  let v := recValue s r
  let g := getter s (putKey r.key v l) []
  match keyRow r.key with
  | none => 1
  | some row =>
    if profileConflict s r.key v && row.base ≠ 0x400 then 4
    else if r.size < keySize s r.key || !inRange s r.key v then 2
    else if nonLowestKey form r.key then 5
    else if !depOk s g r.key then (if ovpConflict s g r.key then 4 else 3)
    else 0

/-- One record: the layer after it, and the event of an ignored entry or part of one. -/
def layerRec (s form : State) (acc : List (Half × Int) × Nat × List (Half × Nat)) (r : Rec) :
    List (Half × Int) × Nat × List (Half × Nat) :=
  let (l, n, ign) := acc
  if enrolKey r.key then acc
  else match entryCause s form l r with
    | 0 =>
      let v := recValue s r
      if profileConflict s r.key v then (putKey r.key (v / 8 * 8) l, n + 1, ign ++ [(r.key, 4)])
      else (putKey r.key v l, n + 1, ign)
    | c => (l, n, ign ++ [(r.key, c)])

/-- The layer of an image, the entries applied, and those ignored with their causes. -/
def layerImage (s : State) (bs : List Byte) : List (Half × Int) × Nat × List (Half × Nat) :=
  let l := (imgRecs bs).getD []
  let form := match findRec l 0x047C with
    | some r => if inRange s r.key (recValue s r) then withLayer s [(r.key, recValue s r)] else withLayer s []
    | none => withLayer s []
  l.foldl (layerRec s form) ([], 0, [])

/-- The events of ignored entries (R474). -/
def ignoredEvents (slot : Nat) (l : List (Half × Nat)) (s : State) : State :=
  each l (fun e => pushEvent 0x0004 (le16 e.1 ++ [byte e.2, byte slot])) s

/-! ### Configuration records to Warden (R553) -/

/-- The keys that Warden applies. -/
def wardenKeyList : List Nat :=
  [0x020D, 0x020E, 0x020F, 0x0210, 0x0801, 0x0802] ++ (List.range 8).map (0x900 + ·) ++
  [0x910, 0x918, 0x920, 0x928, 0x930, 0x938].flatMap fun b => (List.range 8).map (b + ·)

/-- Keys whose value in force changed are queued for Warden. -/
def queueConfig (before s : State) : State :=
  let l := (wardenKeyList.filter fun k => param before k ≠ param s k).map fun k => (BitVec.ofNat 16 k, param s k)
  { s with par := { s.par with cfgWait := s.par.cfgWait ++ l } }

/-- Every other byte of a configuration record is 0. -/
def cfgEntry (kv : Half × Int) : List Byte :=
  [0, 0x70, 0, 0] ++ List.replicate 12 0 ++ le16 kv.1 ++ [0, 0] ++ le32 (BitVec.ofInt 32 kv.2) ++ List.replicate 8 0

/-- Queued records go to Q8 while it has credit, and wait for it otherwise. -/
def sendConfig : Nat → State → State
  | 0, s => s
  | n + 1, s =>
    match s.par.cfgWait with
    | [] => s
    | kv :: rest =>
      if 1 ≤ credit 8 s.ring[8] then
        sendConfig n (putRing 8 (place 8 (cfgEntry kv) s.ring[8]) { s with par := { s.par with cfgWait := rest } })
      else s

end Sys2Proof.Machine
end

