-- ==== Sys2Proof/Machine/Apply.lean ====
section
/-! DEFINITION. What a change of parameter values does, each as its own chapter gives: a command, a trial image or a layering
hands over the keys it may have changed. A value is in force when its step ends (R392; log 29), but for the load ports' values and the
interrupt enables, which Anvil writes in its next policy frame (R272, R384); what an engine does about a key of its unit it does in its
next control frame, when it takes the entry that Anvil has passed to it (R19; log 56). -/

namespace Sys2Proof.Machine
open Sys2Proof

/-- A channel whose port is enabled on the wires and whose gang, if any is selected, is formed (R35, R207). -/
def chanAllowed (s : State) (c : Fin 16) : Bool :=
  chanEnabled s c && (match batOfChan c with | some p => !inRefusedGang s p | none => true)

/-! ### One change each -/

/-- The tier thresholds of the present target with the fractions in force (R38, R41); the final target is the key's, and
so is the VDRV regulator's setpoint (R97). -/
def retier (s : State) : State :=
  regulate s.ride.v (setPresent s.ride.present { s with ride := { s.ride with target := finalTarget s } })

/-- The values of one load port written to its hardware (R272): shed class, limit across the shunt, the shunt, slew, fault time and the
three of its retries. -/
def writeLoad (p : Fin 32) (s : State) : State :=
  onLoad p (fun l => { l with cls := fin8 (paramAt s 0x720 p.val).toNat,
                              limMv := (paramAt s 0x740 p.val : Q) * (paramAt s 0x760 p.val : Q) / 10000,
                              shunt := (paramAt s 0x760 p.val : Q) / 100, retCnt := (param s 0x7C0).toNat,
                              retOff := (param s 0x7C1 : Q), retReset := (param s 0x7C2 : Q),
                              slew := (paramAt s 0x780 p.val : Q) / 10, tFlt := (paramAt s 0x7A0 p.val : Q) / 10 }) s

def writeLoads (s : State) : State := loadRefresh (each (List.finRange 32) writeLoad s)

/-- A change of a channel's keys 0x02A0 to 0x02F0 or of its gang (R120, R121): a run in progress is abandoned, a nominal set in use is
computed anew, under policy 2 it is restored at the full crossover, and the trigger falls. -/
def loopKeyChanged (c : Fin 16) (s : State) : State :=
  let l := chanLow s c
  let s0 := annDiscard l s
  let s1 := if s0.chan[l].origin = 2 && annPolicy s0 l ≠ 2 then s0 else nominalSet l s0
  annTrigger l .keyChange s1

/-- Low-power modes of the Assay groups, from the next control frame (R307); standby keeps every group in it. -/
def assayPower (s : State) : State :=
  each (List.finRange 4) (fun g => onGroup g (fun x =>
    { x with lowPend := some ((param s 0x800).toNat.testBit g.val || decide (s.dev = .standby)) })) s

/-- A reference-select value that has become 1 switches the PLL's reference at the next frame (R333). -/
def referenceKey (s : State) : State :=
  if param s 0x011 = 1 && s.clk.crystal then { s with clk := { s.clk with switchDue := true } } else s

def writeIrq (s : State) : State := { s with host := { s.host with irqEn := BitVec.ofInt 13 (param s 0x20), irqDue := false } }
def writeAlert (s : State) : State := { s with host := { s.host with alertEn := BitVec.ofInt 13 (param s 0x21), alertDue := false } }

/-- The interrupt enables due are written (R384). -/
def writeEnables (s : State) : State := whenS s.host.alertDue writeAlert (whenS s.host.irqDue writeIrq s)

/-- A battery channel that its port may run is on for its owner; another is held off (R207). Its gang is off by command meanwhile. -/
def allowChan (p : Fin 4) (s : State) : State :=
  let c := chanOfBat p
  onChan c (fun h => { h with enabled := chanAllowed s c && chem s p ≠ 0 && chem s p ≠ 7 }) s

/-- A new formation (R206, R207): each port of a changed gang starts its charging anew, its channel is allowed or held off, and the
gangs' channels anneal; a channel that is now its gang's lowest takes its own frequency in its engine's next frame (R79). -/
def formationChanged (before s : State) : State :=
  let ps := (List.finRange 4).filter fun p => gang before p ≠ gang s p || inRefusedGang before p ≠ inRefusedGang s p
  let lows := ps.filter fun p => gangLow s p = p
  let s1 := each (lows.filter fun p => batEn s p && engineUp s (batEngine s p))
    (fun p s => configEvents p (startCharge p .option s)) s
  each lows (fun p s => loopKeyChanged (chanOfBat p) (allowChan p s)) s1

/-! ### All changes of a list of keys -/

/-- The engine that runs a key's unit. -/
def keyEngine (s : State) (k : Half) : Option (Fin 12) :=
  match owner k with
  | .chan c => some (engineOf s c)
  | .src p => some (srcEngine p)
  | .usb p => some (usbEngine p)
  | .bat p => some (batEngine s p)
  | _ => none

/-- Anvil passes a key to the engine that runs its unit; one declared failed is sent it when it is restarted (R19, R457). -/
def passKey (k : Half) (s : State) : State :=
  match keyEngine s k with
  | some e =>
    let s1 := onEng e (fun x => { x with due := x.due ++ [k] }) s
    if s.eng[e].failed then s1 else sendKey e k s1
  | none => s

/-- The effect of a passed key in the engine's next frame. -/
def takeKey (k : Half) (s : State) : State :=
  let b := (keyRow k).elim 0 (·.base)
  match owner k with
  | .chan c => if 0x2A0 ≤ b then loopKeyChanged c s else s
  | .src p => if b = 0x300 then sourceClassWritten p s else s
  | _ => s

/-- An engine takes every key that Anvil has passed. -/
def takeDue (e : Fin 12) (s : State) : State := each s.eng[e].due takeKey (onEng e (fun x => { x with due := [] }) s)

/-- Every PARAM_SET of a source class counts, an equal one too (R156); otherwise a changed value. -/
def countsAlways (set : Bool) (k : Half) : Bool := set && (keyRow k).elim false fun r => r.base = 0x300

/-- The effect of one written key whose value in force may have changed. -/
def keyEffect (set : Bool) (before : State) (k : Half) (s : State) : State :=
  let changed := param before k.toNat ≠ param s k.toNat
  let b := (keyRow k).elim 0 (·.base)
  if owner k = .device then
    if b = 0x11 then (if changed then referenceKey s else s)
    else if b = 0x20 then { s with host := { s.host with irqDue := true } }
    else if b = 0x21 then { s with host := { s.host with alertDue := true } }
    else if 0x200 ≤ b && b ≤ 0x211 && b ≠ 0x201 then (if changed then retier s else s)
    else if b = 0x47C then (if changed then formationChanged before s else s)
    else if b = 0x800 then (if changed then assayPower s else s)
    else s
  else if changed || countsAlways set k then passKey k s else s

/-- The effects of the keys listed, and Warden's own queued for it (R553). -/
def keysEffect (set : Bool) (before : State) (ks : List Half) (s : State) : State :=
  queueConfig before (each ks (keyEffect set before) s)

/-- The same for keys that a change of the layers may change. -/
def keysChanged (before : State) (ks : List Half) (s : State) : State := keysEffect false before ks s

/-- The keys of two image layers. -/
def layerKeys (a b : List (Half × Int)) : List Half :=
  let l := a.map (·.1)
  l ++ ((b.map (·.1)).filter fun k => !l.contains k)

/-- R206: every channel of the old and the new formation is off by command. -/
def formationFree (before after : State) : Bool :=
  let listed (s : State) : List (Fin 4) := (formationGangs (param s 0x47C)).flatten
  (listed before ++ listed after).all fun p => before.chan[chanOfBat p].offByCmd

end Sys2Proof.Machine
end

