-- ==== Sys2Proof/Machine/Flags.lean ====
section
/-! DEFINITION. The status words and flags that the state gives: the device state, the present conditions of the interrupt
causes, the fault summary, the stopped and failed units (R353, R375, R380, R382, R383). -/

namespace Sys2Proof.Machine
open Sys2Proof

/-- A bit list as a word. -/
def bitWord (l : List Bool) : Word := BitVec.ofNat 32 (bits l)

/-- One bit per index below n. -/
def maskOf (n : Nat) (f : Fin n → Bool) : Nat := bits ((List.finRange n).map f)

/-! ### The device state (R375) -/

/-- STATE[3:0]: 0 Boot, 1 Running, 2 Understory standby, 3 Device-stop. -/
def stateCode (d : Dev) : Nat :=
  match d with
  | .running => 1 | .standby => 2 | .deviceStop => 3
  | _ => 0

/-- RESET_CAUSE and HADDR beside the state's bits. -/
def stateWord (s : State) : Word :=
  BitVec.ofNat 32 (stateCode s.dev) ||| bitWord [false, false, false, false, s.mbox.ready, s.dev = .standby, s.host.hostErr] |||
  (s.host.haddr.zeroExtend 32 <<< 8) ||| (s.aon.cause.zeroExtend 32 <<< 16)

/-- Firmware version as the hardware shows it: 0 until the mailbox opens; a patch's own version once applied (R3, R375). -/
def fwVersion (s : State) : Nat × Nat × Bool :=
  if s.mbox.ready then
    match s.mbox.patched with
    | some (a, b) => (a.toNat, b.toNat, true)
    | none => (2, 1, false)
  else (0, 0, false)

def revWord (s : State) : Word :=
  let (a, b, p) := fwVersion s
  BitVec.ofNat 32 (0xA1 + 0x100 * a + 0x10000 * b + 0x1000000 * b2n p)

def devIdWord : Word := 0xBAE07148

/-! ### Interrupt conditions (R383) -/

/-- CRC_ERR or WIN_ERR of a host ring. -/
def anyRingErr (s : State) : Bool := ([0, 1, 2, 3] : List (Fin 16)).any fun q => s.ring[q].crcErr || s.ring[q].winErr

/-- INT_RAW: the present condition of each cause. -/
def rawWord (s : State) : BitVec 13 :=
  BitVec.ofNat 13 (bits [ringCount s.ring[1] ≠ 0, ringCount s.ring[2] ≠ 0, ringCount s.ring[3] ≠ 0, credit 0 s.ring[0] ≠ 0,
    false, s.dev = .deviceStop, false, s.mbox.ready, false, anyRingErr s, false, false, s.dev = .standby])

/-- The edge causes; bits 0 to 2 are levels. -/
def edgeMask : BitVec 13 := 0x1FF8

/-! ### Fault summary (R380) -/

def countCls (s : State) (c : Cls) : Nat := (s.warden.standing.filter fun f => f.cls = c).length

def faultSum (s : State) : Word :=
  BitVec.ofNat 32 (min 255 (countCls s .note) + 0x100 * min 255 (countCls s .degrade) + 0x10000 * min 255 (countCls s .portStop)) |||
  (bitWord [s.dev = .deviceStop, s.warden.standing.any (·.resetOnly)] <<< 24)

/-- A Port-stop on a port of a unit kind. -/
def stopPorts (s : State) : Word :=
  BitVec.ofNat 32 (maskOf 8 (fun p => portHeld s 1 p.val (some (chanOfSrc p))) +
    0x100 * maskOf 4 (fun p => portHeld s 2 p.val (some (chanOfUsb p))) +
    0x1000 * maskOf 4 (fun p => portHeld s 3 p.val (some (chanOfBat p))))

def stopLoads (s : State) : Word := BitVec.ofNat 32 (maskOf 32 fun p => portHeld s 4 p.val none)
def failedPhases (s : State) : Word := BitVec.ofNat 32 (maskOf 28 fun k => s.phase[k].populated && !s.phase[k].healthy)
def failedEngines (s : State) : Nat := maskOf 12 fun e => s.eng[e].failed
def failedUnits (s : State) : Word := BitVec.ofNat 32 (failedEngines s + 0x1000 * maskOf 16 fun c => !s.conv[c].healthy)
def failedSensors (s : State) : Word := BitVec.ofNat 32 (maskOf 20 fun i => s.therm.sensors[i].failed)

/-! ### Host counters and their flags (R375) -/

def errCntWord (s : State) : Word := (s.host.hbusErr.n.zeroExtend 32 <<< 16) ||| s.host.spiErr.n.zeroExtend 32
def protoCntWord (s : State) : Word := (s.host.hbusProto.n.zeroExtend 32 <<< 16) ||| s.host.spiProto.n.zeroExtend 32
def cntFlags (s : State) : Word := bitWord [s.host.spiErr.sat, s.host.hbusErr.sat, s.host.spiProto.sat, s.host.hbusProto.sat]

end Sys2Proof.Machine
end

