-- ==== Sys2Proof/Machine/Mailbox.lean ====
section
/-! DEFINITION. The mailbox: how Anvil takes a command from Q0, checks it, executes it and answers it (R388 to R396), and
the standby that a refused command ends (R525, R526). -/

namespace Sys2Proof.Machine
open Sys2Proof

/-! ### Status codes (table "Common status codes") -/

def stOk : Nat := 0x0000
def stStarted : Nat := 0x0001
def stRange : Nat := 0x0020
def stOrder : Nat := 0x0021
def stDisabled : Nat := 0x0022
def stHold : Nat := 0x0023
def stState : Nat := 0x0024
def stClear : Nat := 0x0025
def stRegion : Nat := 0x0026
def stUnit : Nat := 0x0027
def stKey : Nat := 0x0028
def stBusy : Nat := 0x0030
def stSecurity : Nat := 0x0031
def stExhausted : Nat := 0x0032

/-- What a command gives: its status, its response data, and the machine after its effect. -/
structure Reply where
  status : Nat
  data   : List Byte
  state  : State

def refuse (st : Nat) (s : State) : Reply := ⟨st, [], s⟩
def done (d : List Byte) (s : State) : Reply := ⟨stOk, d, s⟩

/-! ### A command (table "Mailbox header") -/

structure Cmd where
  tag   : Byte
  flags : Byte
  op    : Half
  len   : Nat
  body  : List Byte
  idx   : Half

def cmdOf (bs : List Byte) (idx : Half) : Cmd :=
  let len := ofLe (slice bs 4 2)
  { tag := byteAt bs 0, flags := byteAt bs 1, op := BitVec.ofNat 16 (ofLe (slice bs 2 2)), len := len, body := slice bs 8 len, idx := idx }

def Cmd.dry (c : Cmd) : Bool := c.flags.getLsbD 0

/-- Fields of a payload. -/
def Cmd.u8 (c : Cmd) (o : Nat) : Nat := (byteAt c.body o).toNat
def Cmd.u16 (c : Cmd) (o : Nat) : Nat := ofLe (slice c.body o 2)
def Cmd.u32 (c : Cmd) (o : Nat) : Nat := ofLe (slice c.body o 4)

/-- R409. -/
def Cmd.confirmed (c : Cmd) : Bool := c.u16 0 = 0x7148

/-- A row of the table "Command index": its opcode, whether it only reads, whether the standby refuses it, check 6 on the
payload, check 7 on the device state, and check 8 with its effect. -/
structure CmdRow where
  op      : Nat
  reads   : Bool
  standby : Bool := false
  lenOk   : Cmd → Bool
  stateOk : State → Cmd → Bool := fun _ _ => true
  run     : Cmd → State → Reply

/-- The opcodes of Anvil firmware 2.1. -/
def opcodes : List Nat :=
  [0x0000, 0x0001, 0x0002, 0x0003, 0x0004, 0x0005, 0x0100, 0x0101, 0x0102, 0x0103, 0x0104, 0x0105, 0x0106, 0x0107, 0x0108,
   0x0200, 0x0201, 0x0202, 0x0300, 0x0400, 0x0401, 0x0402, 0x0403, 0x0500, 0x0501, 0x0600, 0x0700, 0x0701, 0x0702,
   0x0800, 0x0801, 0x0802, 0x0900, 0x0A00, 0x0A01, 0x0B00, 0x0B01, 0x0B02, 0x0B03, 0x0C00, 0x0C01]

def notDeviceStop (s : State) (_ : Cmd) : Bool := s.dev ≠ .deviceStop

/-! ### Responses (R388 to R390) -/

/-- The 256 bytes of a response: prefix and data, the data only with OK or STARTED. -/
def responseBytes (c : Cmd) (st : Nat) (data : List Byte) : List Byte :=
  let p := le 2 (st : Nat) ++ le16 c.idx ++ (if st = stOk || st = stStarted then data else [])
  let h := [c.tag, byte (0x80 + b2n c.dry)] ++ le16 c.op ++ le 2 (p.length : Nat)
  pad 256 (h ++ le16 (crc16 (h ++ p)) ++ p)

def respond (c : Cmd) (st : Nat) (data : List Byte) (s : State) : State := pushRing 1 (responseBytes c st data) s

/-! ### The checks of R394 -/

/-- Tags in use: responses not yet popped, and long-running commands not yet completed. -/
def tagsInUse (s : State) : List Byte := (s.ring[1].entries.map fun e => byteAt e.bytes 0) ++ s.mbox.long.map (·.tag)

def crcFitsCmd (bs : List Byte) (c : Cmd) : Bool := (crc16 (slice bs 0 6 ++ c.body)).toNat = ofLe (slice bs 6 2)

/-- Checks 1 and 2; a failure's status and its cause in the report. -/
def check12 (bs : List Byte) (c : Cmd) (ringOk : Bool) : Option (Nat × Nat) :=
  if 248 < c.len then some (0x0011, 1) else if !(ringOk && crcFitsCmd bs c) then some (0x0010, 0) else none

/-- Checks 3 to 7. -/
def check37 (r : CmdRow) (s : State) (c : Cmd) : Option Nat :=
  if c.flags &&& 0xFE ≠ 0 then some 0x0012
  else if (tagsInUse s).contains c.tag then some 0x0014
  else if !opcodes.contains c.op.toNat then some 0x0013
  else if !r.lenOk c then some 0x0015
  else if !r.stateOk s c then some stState
  else none

/-- A failure at check 1 or 2 is reported with the master that committed the doorbell (R394). -/
def reportMailbox (m : BitVec 4) (idx : Half) (cause : Nat) (inj : Bool) (s : State) : State :=
  report { checker := 0x05, master := m, access := .pop, injected := inj, unitKind := 13, unitIdx := if m = 14 then 1 else 0,
           addr := entryAddr 0 idx, cause := BitVec.ofNat 16 cause } s

/-! ### Execution and DRY_RUN (R392, R393, R395) -/

/-- The command executed, or under DRY_RUN judged alone: then a read-only command gives its data, another zeros. -/
def perform (r : CmdRow) (c : Cmd) (s : State) : State :=
  let y := r.run c s
  if c.dry then
    let st := if y.status = stStarted then stOk else y.status
    respond c st (if r.reads then y.data else zerosOf y.data) s
  else respond c y.status y.data y.state
where
  zerosOf (d : List Byte) : List Byte := d.map fun _ => 0

/-- A command popped from Q0, checked, executed and answered. -/
def answerCmd (r : CmdRow) (bs : List Byte) (idx : Half) (m : BitVec 4) (ringOk : Bool) (s : State) : State :=
  let c := cmdOf bs idx
  let (inj, s1) := injected 0x05 s
  match (if 248 < c.len then some (0x0011, 1) else if inj then some (0x0010, 0) else check12 bs c ringOk) with
  | some (st, cause) => respond c st [] (reportMailbox m idx cause inj s1)
  | none =>
    match check37 r s1 c with
    | some st => respond c st [] s1
    | none => perform r c s1

/-- Anvil can take a command: the mailbox is open, one waits, and a Q1 slot is free for its response (R391). -/
def mayTake (s : State) : Bool := s.mbox.ready && !s.eng[(0 : Fin 12)].halted && decide (s.ring[1].entries.length < 16) && s.ring[1].stalled.isEmpty

/-- The opcode of the command that waits is the row's, or is not implemented at all. -/
def takesRow (r : CmdRow) (op : Half) : Bool := op.toNat = r.op || !opcodes.contains op.toNat

/-- R526: the command would be refused for standby alone; it is held, and standby is left at the next frame start. -/
def holdsForStandby (r : CmdRow) (s : State) (e : Entry) (idx : Half) : Bool :=
  let c := cmdOf e.bytes idx
  r.standby && s.dev = .standby && c.op.toNat = r.op && (check12 e.bytes c e.crcOk).isNone && (check37 r s c).isNone

/-- One mailbox command: the oldest in Q0, where it is this row's. -/
def takeCommand (r : CmdRow) (s : State) : State :=
  if mayTake s then
    match headEntry 0 0 s, indexOf s.ring[0] 0 with
    | some e, some idx =>
      let op := BitVec.ofNat 16 (ofLe (slice e.bytes 2 2))
      if !takesRow r op then s
      else if holdsForStandby r s e idx then wantRunning 5 s
      else
        let bad := (injected 0x03 s).1
        let m := s.mbox.q0By.headD 13
        let s1 := popRing 0 0 true { s with mbox := { s.mbox with q0By := s.mbox.q0By.drop 1 } }
        answerCmd r e.bytes idx m (e.crcOk && !bad) s1
    | _, _ => s
  else s

/-! ### Long-running commands (R393, R410) -/

def longRuns (s : State) (k : LongKind) : Bool := s.mbox.long.any (·.kind = k)

/-- An OTP burn or key revocation runs in the controller, whether or not its command still stands (R398, R410). -/
def burnRuns (s : State) : Bool := s.otp.busy.isSome

/-- A long-running command ends: its completion event, unless an Anvil restart has ended it before (R393, R398). -/
def completeLong (l : Long) (status : Nat) (s : State) : State :=
  if s.mbox.long.contains l then
    pushEvent 0x0003 ([l.tag, 0] ++ le16 l.q0idx ++ le 2 (status : Nat))
      { s with mbox := { s.mbox with long := s.mbox.long.filter (· ≠ l) } }
  else s

/-! ### Units (R408, R411) -/

/-- Number of units of a kind. -/
def unitCount (k : Nat) : Nat :=
  match k with
  | 0 => 1 | 1 => 8 | 2 => 4 | 3 => 4 | 4 => 32 | 5 => 16 | 6 => 28 | 7 => 12 | 8 => 16 | 9 => 4 | 10 => 192 | 11 => 20 | 12 => 16 | 13 => 2
  | _ => 0

/-- A port, or a channel by its port, disabled on the wires. -/
def unitDisabled (s : State) (k i : Nat) : Bool :=
  match k with
  | 1 => !srcEn s (fin8 i) | 2 => !usbEn s (fin4 i) | 3 => !batEn s (fin4 i) | 4 => !loadEn s (fin32 i) | 5 => !chanEnabled s (fin16 i)
  | _ => false

/-- The status of a request that names one port by its first byte. -/
def portCheck (s : State) (kind i : Nat) : Option Nat :=
  if unitCount kind ≤ i then some stRange else if unitDisabled s kind i then some stDisabled else none

end Sys2Proof.Machine
end

