-- ==== Sys2Proof/Machine/CmdParam.lean ====
section
/-! DEFINITION. The parameter, image and burn commands, and the end of a burn (R419 to R428, R466, R469 to R474, R478). -/

namespace Sys2Proof.Machine
open Sys2Proof

/-! ### PARAM_SET (R419, R420) -/

/-- 1 to 40 records back to back. -/
def setRecs (c : Cmd) : Option (List Rec) := parseRecs 40 c.body

/-- Check 8 on one record: the key, its range, the wires, and the state. -/
def recordStatus (s : State) (r : Rec) : Option Nat :=
  let v := recValue s r
  if (keyRow r.key).isNone then some stKey
  else if r.size < keySize s r.key || !inRange s r.key v then some stRange
  else if keyPortDisabled s r.key then some stDisabled
  else if profileConflict s r.key v then some stRegion
  else if nonLowestKey s r.key then some stState
  else none

def withHost (s : State) (h : List (Half × Int)) : State := { s with par := { s.par with host := h } }

/-- The host layer once every record is applied; a later record for a key wins. -/
def applyRecs (s : State) (l : List Rec) : List (Half × Int) := l.foldl (fun h r => putKey r.key (recValue s r) h) s.par.host

/-- The dependencies of a list of keys on the values that would stand. -/
def setStatus (s : State) (h : List (Half × Int)) (ks : List Half) : Option Nat :=
  let g := getter s (imageLayer s.par) h
  ks.findSome? fun k => if depOk s g k then none else if ovpConflict s g k then some stRegion else some stOrder

/-- R206: a new formation while one of its channels, or of the old one's, is not off by command. -/
def formationBars (s after : State) : Bool := param s 0x47C ≠ param after 0x47C && !formationFree s after

/-- A write of the standby delay ends standby (R525). -/
def standbyKey (ks : List Half) (s : State) : State := if ks.contains 0x0013 then wantRunning 5 s else s

def runParamSet (c : Cmd) (s : State) : Reply :=
  let l := (setRecs c).getD []
  match l.findSome? (recordStatus s) with
  | some st => refuse st s
  | none =>
    let h := applyRecs s l
    let ks := l.map (·.key)
    let s1 := withHost s h
    if formationBars s s1 then refuse stState s
    else match setStatus s h ks with
      | some st => refuse st s
      | none => done [byte l.length] (standbyKey ks (keysEffect true s ks s1))

def rowParamSet : CmdRow :=
  { op := 0x0100, reads := false, lenOk := fun c => decide (0 < c.len) && (setRecs c).isSome, stateOk := notDeviceStop, run := runParamSet }

/-! ### PARAM_GET, PARAM_REVERT (R421, R422) -/

/-- 1 to 124 keys. -/
def keysLen (c : Cmd) : Bool := decide (2 ≤ c.len) && decide (c.len ≤ 248) && c.len % 2 = 0
def keysOf (c : Cmd) : List Half := (List.range (c.len / 2)).map fun i => BitVec.ofNat 16 (c.u16 (2 * i))

/-- The record of a key's winning value and its ORIGIN. -/
def keyRecord (s : State) (k : Half) : List Byte :=
  le16 k ++ [byte (keySize s k)] ++ le (keySize s k) (param s k.toNat) ++ [byte (origin s k)]

def runParamGet (c : Cmd) (s : State) : Reply :=
  let ks := keysOf c
  if ks.any fun k => (keyRow k).isNone then refuse stKey s
  else if ks.any (keyPortDisabled s) then refuse stDisabled s
  else
    let d := ks.flatMap (keyRecord s)
    if 244 < d.length then refuse stRange s else done d s

def rowParamGet : CmdRow := { op := 0x0101, reads := true, lenOk := keysLen, run := runParamGet }

def runParamRevert (c : Cmd) (s : State) : Reply :=
  let ks := keysOf c
  let all := ks = [0xFFFF]
  if !all && ks.any (fun k => (keyRow k).isNone) then refuse stKey s
  else if !all && ks.any (keyPortDisabled s) then refuse stDisabled s
  else
    let gone := if all then s.par.host.map (·.1) else ks
    let h := s.par.host.filter fun e => !gone.contains e.1
    let s1 := withHost s h
    if formationBars s s1 then refuse stState s
    else if (setStatus s h gone).isSome then refuse stOrder s
    else done [] (standbyKey (gone.filter fun k => (lookup k s.par.host).isSome) (keysChanged s gone s1))

def rowParamRevert : CmdRow := { op := 0x0102, reads := false, lenOk := keysLen, stateOk := notDeviceStop, run := runParamRevert }

/-! ### IMAGE_STAGE, IMAGE_TRIAL, IMAGE_STATUS (R423, R424, R426) -/

def imageBurns (s : State) : Bool := s.otp.busy.any (·.kind = .image)

/-- Bytes written into a staging buffer: a write at offset 0 first empties it. -/
def stageAt (off : Nat) (bs : List Byte) (m : Mem) (len : Nat) : Mem × Nat :=
  if off = 0 then (memWriteN [] 0 bs, bs.length) else (memWriteN m off bs, max len (off + bs.length))

def runImageStage (c : Cmd) (s : State) : Reply :=
  let off := c.u16 0
  let bs := c.body.drop 2
  if off % 4 ≠ 0 || 2044 < off || 2048 < off + bs.length then refuse stRange s
  else
    let (m, n) := stageAt off bs s.mbox.stage s.mbox.stageLen
    done (le 2 (n : Nat)) { s with mbox := { s.mbox with stage := m, stageLen := n } }

def rowImageStage : CmdRow :=
  { op := 0x0103, reads := false, lenOk := fun c => decide (6 ≤ c.len) && decide (c.len ≤ 242) && (c.len - 2) % 4 = 0,
    stateOk := fun s _ => !imageBurns s, run := runImageStage }

def staged (s : State) : List Byte := memReadN s.mbox.stage 0 2048

/-- Format and CRC of the staged image, with its length and the places of MAC and COMMIT (R425 step 1, R469). -/
def stagedForm (s : State) : Bool :=
  let bs := staged s
  (s.mbox.stageLen = 2044 || s.mbox.stageLen = 2048) && (slice bs 0x7E0 16).all (· = 0) && (slice bs 0x7FC 4).all (· = 0) &&
  formatOk bs && crcFits bs

/-- A key of a formation kept in force where a trial or its end may not change it (R206, R424; log 31). -/
def keepFormation (s : State) (l : List (Half × Int)) : List (Half × Int) :=
  putKey 0x047C (valueIn s (imageLayer s.par) [] 0x047C) l

def withTrial (s : State) (t : Option (List (Half × Int))) : State := { s with par := { s.par with trial := t } }

/-- Keys that a trial or its end may change; the interrupt enables are written at no change of layers but a boot (R384). -/
def trialKeys (a b : List (Half × Int)) : List Half := (layerKeys a b).filter fun k => k ≠ 0x20 && k ≠ 0x21

/-- The layer of a trial image, the entries applied, and those ignored. -/
def trialLayer (s : State) : List (Half × Int) × Nat × List (Half × Nat) :=
  let (l, n, ign) := layerImage s (staged s)
  if formationBars s (withTrial s (some l)) then
    if (lookup 0x047C l).isSome then (keepFormation s l, n - 1, ign ++ [(0x047C, 6)]) else (keepFormation s l, n, ign)
  else (l, n, ign)

def beginTrial (s : State) : Reply :=
  if !stagedForm s then refuse 0x0101 s
  else if !signatureOk s (staged s) then refuse stSecurity s
  else
    let (l, n, ign) := trialLayer s
    let s1 := keysChanged s (trialKeys (imageLayer s.par) l) (withTrial s (some l))
    done (le 2 (n : Nat) ++ le 2 (ign.length : Nat)) (ignoredEvents 0 ign s1)

/-- The slot layer restored: where its slot is no longer valid, the highest slot then valid (R487). -/
def slotLayerNow (s : State) : State :=
  let i := s.par.inForce.val
  if i = 0 || s.otp.validSlots.getLsbD (i - 1) then s
  else
    let n := highestValid s
    let bs := slotBytes s n
    if n = 0 then { s with par := { s.par with slot := [], inForce := 0, ident := 0 } }
    else { s with par := { s.par with slot := (layerImage s bs).1, inForce := Fin.ofNat 15 n, ident := imgIdent bs } }

def endTrial (s : State) : Reply :=
  if s.par.trial.isNone then refuse stState s
  else
    let s1 := slotLayerNow (withTrial s none)
    if formationBars s s1 then refuse stState s
    else done (List.replicate 4 0) (keysChanged s (trialKeys (imageLayer s.par) s1.par.slot) s1)

def rowImageTrial : CmdRow :=
  { op := 0x0104, reads := false, lenOk := fun c => c.len = 1, stateOk := notDeviceStop,
    run := fun c s => if c.u8 0 = 0 then beginTrial s else if c.u8 0 = 1 then endTrial s else refuse stRange s }

/-- R425 step 2. -/
def stagedSecure (s : State) : Bool := signatureOk s (staged s) && !lockBlown s 4

def imageStatus (s : State) : List Byte :=
  [byte s.par.inForce.val, byte (bits [s.par.trial.isSome, stagedForm s && stagedSecure s, slotsExhausted s])] ++
  le 2 (consumedMask s).toNat ++ le 2 s.otp.validSlots.toNat ++ le 2 s.otp.slotMarg.toNat ++ le 2 (s.mbox.stageLen : Nat) ++
  le16 s.par.ignored ++ le32 s.par.ident

def rowImageStatus : CmdRow :=
  { op := 0x0106, reads := true, lenOk := fun c => c.len = 0, run := fun _ s => done (imageStatus s) s }

/-! ### IMAGE_BURN (R425, R471, R478) -/

/-- The enrolment cases of R478 that refuse the burn. -/
def enrolBars (s : State) : Bool :=
  match (imgRecs (staged s)).bind enrolOf with
  | none => false
  | some e =>
    !keyBlank s e.pos || lockBlown s 2 || (anyImageKey s && !(imgSigned (staged s) && imageKey s (imgKey (staged s))))

/-- R471 step 1. -/
def burnAllowed (s : State) : Bool := decide (3000 ≤ s.vcc.mean) && decide (-20 ≤ s.therm.tj) && decide (s.therm.tj ≤ 110)

/-- The controller's buffer: the staged image with its MAC, its COMMIT still blank. -/
def burnBuffer (s : State) : Mem :=
  let bs := staged s
  memWriteN [] 0 (slice bs 0 0x7E0 ++ (hmac (macKey s) (slice bs 0 0x7E0)).take 16 ++ slice bs 0x7F0 12)

/-- A burn begins: the controller is busy for the long-running command. -/
def beginBurn (k : LongKind) (c : Cmd) (sel sel2 : Byte) (s : State) : State :=
  let l : Long := { kind := k, tag := c.tag, q0idx := c.idx, sel := sel, sel2 := sel2 }
  { s with otp := { s.otp with busy := some l }, mbox := { s.mbox with long := s.mbox.long ++ [l] } }

def runImageBurn (c : Cmd) (s : State) : Reply :=
  if !c.confirmed then refuse stRange s
  else if !stagedForm s then refuse 0x0101 s
  else if !stagedSecure s || enrolBars s then refuse stSecurity s
  else match nextSlot s with
    | none => refuse stExhausted s
    | some n =>
      if burnRuns s then refuse stBusy s
      else if !burnAllowed s then refuse stState s
      else
        let s1 := beginBurn .image c 0 0 s
        let o := { s1.otp with slot := Fin.ofNat 15 n, verifyFail := false, interrupted := false, words := 0, buffer := burnBuffer s }
        ⟨stStarted, [byte n], { s1 with otp := o }⟩

def rowImageBurn : CmdRow :=
  { op := 0x0105, reads := false, standby := true, lenOk := fun c => c.len = 2, stateOk := notDeviceStop, run := runImageBurn }

/-! ### C_BURN, LOCK_BURN (R427, R428, R466) -/

/-- The stored value that burns a shadow word. -/
def storedOf (s : State) (w : Nat) : Word := shadowWord s w ^^^ inversion w

/-- A burned bit would need to return to 0. -/
def fuseConflict (s : State) (sel : Nat) : Bool :=
  (List.range 6).any fun w => sel.testBit w && (vote s (copiesC w)).1 &&& ~~~(storedOf s w) ≠ 0

def runCBurn (c : Cmd) (s : State) : Reply :=
  let sel := c.u8 2
  if !c.confirmed then refuse stRange s
  else if lockBlown s 1 || s.wires.debugLock then refuse stSecurity s
  else if burnRuns s then refuse stBusy s
  else if fuseConflict s sel then refuse 0x0103 s
  else
    let s1 := beginBurn .cRegion c (byte sel) 0 s
    let m := memWriteN [] 0 ((List.range 6).flatMap fun w => le32 (storedOf s w))
    ⟨stStarted, [], { s1 with otp := { s1.otp with buffer := m } }⟩

def rowCBurn : CmdRow :=
  { op := 0x0107, reads := false, standby := true, lenOk := fun c => c.len = 3, stateOk := notDeviceStop, run := runCBurn }

def runLockBurn (c : Cmd) (s : State) : Reply :=
  if !c.confirmed || 32 ≤ c.u8 2 || 32 ≤ c.u8 3 then refuse stRange s
  else if burnRuns s then refuse stBusy s
  else ⟨stStarted, [], beginBurn .lock c (byte (c.u8 2)) (byte (c.u8 3)) s⟩

def rowLockBurn : CmdRow :=
  { op := 0x0108, reads := false, standby := true, lenOk := fun c => c.len = 4, stateOk := notDeviceStop, run := runLockBurn }

/-! ### What a burn burns, word by word (R466, R471, R477) -/

/-- A word of the controller's buffer. -/
def bufWord (s : State) (w : Nat) : Word := BitVec.ofNat 32 (ofLe (memReadN s.otp.buffer (4 * w) 4))

/-- Words 0 to 510 of the image's slot. -/
def imageWords (s : State) : List (Nat × Word) :=
  (List.range 511).map fun w => (slotBase s.otp.slot.val + 4 * w, bufWord s w)

/-- Copies 0 to 2 of each selected word in turn, then the security bits; the values as they stood at the command. -/
def cWords (s : State) (sel : Byte) : List (Nat × Word) :=
  let sec : Word := (if sel.getLsbD 6 then 1 else 0) ||| (if sel.getLsbD 7 then 2 else 0)
  ((List.range 6).flatMap fun w => if sel.getLsbD w then (copiesC w).map fun a => (a, bufWord s w) else []) ++
  (if sec = 0 then [] else (copiesC 6).map fun a => (a, sec))

/-- Locks of the two masks: writes 0 to 4, reads 5 to 9. -/
def lockList (w r : Byte) : List Nat :=
  ((List.range 5).filter fun i => w.getLsbD i) ++ (((List.range 5).filter fun i => r.getLsbD i).map (· + 5))

/-- The words of a burn in its order; a lock pair counts as one, given by its two fuse bytes. -/
def burnList (s : State) (l : Long) : List (Nat × Word) :=
  match l.kind with
  | .image => imageWords s
  | .cRegion => cWords s l.sel
  | .lock => (lockList l.sel l.sel2).map fun i => (lockAddr i, 0x0101)
  | .revoke => [0x990, 0x994, 0x998].map fun a => (a, (1 : Word) <<< l.sel.toNat)

def burnWords (ws : List (Nat × Word)) (s : State) : State := each ws (fun w => burnWord w.1 w.2) s

/-- The controller is free again. -/
def burnOver (s : State) : State := { s with otp := { s.otp with busy := none, buffer := [] } }

/-- Command codes of event 0x0B04 (R486); 4 is an enrolment. -/
def burnCode (k : LongKind) : Byte :=
  match k with | .image => 0 | .cRegion => 1 | .lock => 2 | .revoke => 3

def burnEvent (code : Byte) (slot status : Nat) (s : State) : State := pushEvent 0x0B04 ([code, byte slot] ++ le 2 (status : Nat)) s

def stVerify : Nat := 0x0102
def stAborted : Nat := 0x0040

/-- The enrolment that the burned image carries. -/
def burnEnrol (s : State) : Option Enrol := (imgRecs (memReadN s.otp.buffer 0 2048)).bind enrolOf

/-- R478: the digest and then the control word, or the digest alone where a word failed its verify. -/
def enrolKeyOf (e : Enrol) (ok : Bool) (s : State) : State :=
  let s1 := burnBytes (keyBase e.pos) e.digest s
  if ok then
    burnEvent 4 s1.otp.slot.val stOk (pushEvent 0x0B07 [byte e.pos, e.ctrl] (burnBytes (keyBase e.pos + 0x20) [e.ctrl, 0, 0, 0xA5] s1))
  else burnEvent 4 s1.otp.slot.val stVerify s1

/-- A free number below n (log 1). -/
def freeBelow (n : Nat) (s : State) : Nat × State := (Config.freeNat s.free % n, { s with free := s.free + 1 })

/-- A verify failed: the words burned before it are of a free number; an image's slot is made void (R471). -/
def burnFails (l : Long) (s : State) : State :=
  let ws := burnList s l
  let (k, s1) := freeBelow (max 1 ws.length) s
  let s2 := burnWords (ws.take (k + 1)) s1
  match l.kind with
  | .image =>
    let s3 := burnWord (slotBase s.otp.slot.val + 0x7FC) 0xFFFFFFFF s2
    { s3 with otp := { s3.otp with verifyFail := true, words := k + 2 } }
  | _ => s2

/-- An image burned and committed: its slot may be valid now (R382). -/
def commitImage (s : State) : State :=
  let n := s.otp.slot.val
  let s1 := burnBytes (slotBase n + 0x7FC) commitBytes (burnWords (imageWords s) s)
  let o := { s1.otp with words := 512, validSlots := putBit s1.otp.validSlots (n - 1) (slotCheck s1 n = 0) }
  { s1 with otp := o }

/-- Words verified at the burn-verify margin read firm, though a cut burn had left them weak (R466). -/
def firmWords (ws : List (Nat × Word)) (s : State) : State :=
  { s with otp := { s.otp with marginal := s.otp.marginal.filter fun m => !(ws.any fun w => w.1 = m) } }

/-- The burn of each kind done, with its own events, and the completion status. -/
def burnDone (l : Long) (enrolOk : Bool) (s : State) : State × Nat :=
  match l.kind with
  | .image =>
    let s1 := burnEvent (burnCode .image) s.otp.slot.val stOk (commitImage s)
    match burnEnrol s with
    | none => (s1, stOk)
    | some e => (enrolKeyOf e enrolOk s1, if enrolOk then stOk else stVerify)
  | .revoke => (burnEvent (burnCode .revoke) 0 stOk (pushEvent 0x0B08 [l.sel] (burnWords (burnList s l) s)), stOk)
  | .cRegion => (burnEvent (burnCode .cRegion) 0 stOk (firmWords (burnList s l) (burnWords (burnList s l) s)), stOk)
  | k => (burnEvent (burnCode k) 0 stOk (burnWords (burnList s l) s), stOk)

def slotShown (s : State) (k : LongKind) : Nat := if k = .image then s.otp.slot.val else 0

/-- R471: the burn of a long-running command ends, with its words verified or not. -/
def burnEnds (l : Long) (ok enrolOk : Bool) (s : State) : State :=
  if ok then
    let (s1, st) := burnDone l enrolOk s
    completeLong l st (burnOver s1)
  else completeLong l stVerify (burnOver (burnEvent (burnCode l.kind) (slotShown s l.kind) stVerify (burnFails l s)))

def execOtpBurnComplete (ok enrolOk : Bool) (s : State) : Host.Outcome State Fault Refusal :=
  .next (match s.otp.busy with
    | some l => burnEnds l ok enrolOk s
    | none => s)

/-- R471: VCC, in mV, below 2.9 V stops the burn after so many words, without a commit word. -/
def burnStops (l : Long) (n : Nat) (s : State) : State :=
  let s1 := burnWords ((burnList s l).take n) s
  let s2 := if l.kind = .image then { s1 with otp := { s1.otp with words := min n 511 } } else s1
  completeLong l stAborted (burnOver (burnEvent (burnCode l.kind) (slotShown s l.kind) stAborted s2))

def execBurnVccLow (vcc : Q) (wordsDone : Nat) (s : State) : Host.Outcome State Fault Refusal :=
  .next (match s.otp.busy with
    | some l => if vcc < 2900 then burnStops l wordsDone s else s
    | none => s)

/-! ### The rows -/

def execParamSet (s : State) : Host.Outcome State Fault Refusal := .next (takeCommand rowParamSet s)
def execParamGet (s : State) : Host.Outcome State Fault Refusal := .next (takeCommand rowParamGet s)
def execParamRevert (s : State) : Host.Outcome State Fault Refusal := .next (takeCommand rowParamRevert s)
def execImageStage (s : State) : Host.Outcome State Fault Refusal := .next (takeCommand rowImageStage s)
def execImageTrial (s : State) : Host.Outcome State Fault Refusal := .next (takeCommand rowImageTrial s)
def execImageBurn (s : State) : Host.Outcome State Fault Refusal := .next (takeCommand rowImageBurn s)
def execImageStatus (s : State) : Host.Outcome State Fault Refusal := .next (takeCommand rowImageStatus s)
def execCBurn (s : State) : Host.Outcome State Fault Refusal := .next (takeCommand rowCBurn s)
def execLockBurn (s : State) : Host.Outcome State Fault Refusal := .next (takeCommand rowLockBurn s)

end Sys2Proof.Machine
end

