-- ==== Sys2Proof/Machine/Telemetry.lean ====
section
/-! DEFINITION. What telemetry shows of the machine: the blocks of the snapshot, its refresh and swap, and the records of Q3
(R171, R209, R234, R267, R282, R322, R385, R386, R405). -/

namespace Sys2Proof.Machine
open Sys2Proof

def zeros (n : Nat) : List Byte := List.replicate n 0

/-! ### Codes of the telemetry tables -/

def pathCode : Path → Nat
  | .absent => 0 | .debounce => 1 | .qualifying => 2 | .ramping => 3 | .delivering => 4 | .withdrawing => 5

def trackCode : Track → Nat
  | .none => 0 | .tracking => 1 | .swell => 2 | .curtailed => 3 | .inputLimited => 4 | .scan => 5 | .idle => 6
  | .waveRunning => 7 | .wavePaused => 8 | .dc => 9

def typeCCode : TypeC → Nat
  | .disabled => 0 | .unattSnk => 1 | .attWaitSnk => 2 | .attSnk => 3 | .unattSrc => 4 | .attWaitSrc => 5 | .attSrc => 6
  | .trySnk => 7 | .trySrc => 7 | .tryWaitSnk => 7 | .tryWaitSrc => 7 | .errorRecovery => 8

def ovpCode : Ovp → Nat
  | .armed => 0 | .stopped => 1 | .clearable => 2 | .resetOnly => 3

def loadStateCode : LoadState → Nat
  | .off => 0 | .softStart => 1 | .on => 2 | .limiting => 3 | .retryWait => 4 | .latched => 5

/-- Taproot, coded as the snapshot (R386). -/
def tapCode : TapState → Nat
  | .armed => 0 | .fast => 1 | .cold => 2 | .tripped => 3 | .off => 4

/-- The discharge state; where several hold, Warden's stop is shown first, then Cut-off, then the temperature (log 27). -/
def disOf (s : State) (p : Fin 4) : Discharge :=
  let x := s.bat[p]
  if s.chan[chanOfBat p].stops.contains .hold then .wardenStop
  else if x.cut || tapsUnused s p then .cutoff
  else if x.tempStop then .temperature
  else if chgOption s p 3 && !x.called then .reserve
  else .normal

def disCode : Discharge → Nat
  | .normal => 0 | .cutoff => 1 | .reserve => 2 | .temperature => 3 | .wardenStop => 4

/-! ### Blocks -/

/-- Port power in mW: the frame's mean of the records' products (R171). -/
def srcPower (x : Src) : Q := x.pw.mean

/-- A source port's 32 bytes (R171, R386). -/
def srcBlock (s : State) (p : Fin 8) : List Byte :=
  if !srcEn s p then zeros 32
  else
    let x := s.src[p]
    let h := s.chan[chanOfSrc p]
    let fl := bits [x.bindI, x.bindP, h.curtailed, x.atBound, x.ovStop, x.sweepCut]
    let tsw := match x.swell with | some w => w.tSw * 1000 | none => 0
    let a := match x.swell with | some w => w.a * 256 | none => 0
    pad 32 ([byte (pathCode x.path), byte (classShown s p + 16 * x.found.val), byte (trackCode x.track), byte fl] ++
      quantU 2 (x.v.mean / 10) ++ quantU 2 (h.refTarget / 10) ++ quant 4 x.i.mean ++ quant 4 (srcPower x / 10) ++
      quantU 2 (x.vOc / 10) ++ quantU 2 (h.kappa * 256) ++ quantU 2 tsw ++ quantU 2 a ++ quant 8 x.energy)

/-- A USB port's 32 bytes (R267, R386). -/
def usbBlock (s : State) (p : Fin 4) : List Byte :=
  if !usbEn s p then zeros 32
  else
    let u := s.usb[p]
    let roles := bits [u.source, u.dfp, u.vconnSrc, u.epr, u.pd20, u.barred]
    let fl := bits [u.clampBinds, s.chan[chanOfUsb p].curtailed, u.ppsLimit, u.ovStop]
    [byte (typeCCode u.tc), byte (pathCode u.path), byte roles, byte fl, byte (contractCode u.contract.kind),
     byte u.contract.pos, byte u.cable.val, 0] ++
      quantU 2 (u.contract.mv / 10) ++ quantU 2 (u.contract.ma / 10) ++ quantU 2 (u.vbus.mean / 10) ++ [0, 0] ++
      quant 4 u.i.mean ++ quant 4 (u.pw.mean / 10) ++ quant 8 u.energy

/-- Flags of the table "Battery telemetry". -/
def batFlags (s : State) (p : Fin 4) : Nat :=
  let x := s.bat[p]
  let c := chanOfBat p
  bits [x.paused, s.chan[c].restHold, x.regBinds, x.clampBinds, x.supplyLim, x.platLim, x.throttled, decide (phaseScale s c < 1)]

/-- A battery port's 64 bytes; a port of a gang other than its lowest reads 0 (R209, R385, R386). -/
def batBlock (s : State) (p : Fin 4) : List Byte :=
  if !batEn s p || gangLow s p ≠ p then zeros 64
  else
    let x := s.bat[p]
    [byte (chargeCode x.charge), byte (disCode (disOf s p)), byte (batFlags s p), 0] ++ quantU 2 (x.vBank.mean / 10) ++ [0, 0] ++
      quant 4 x.iBank.mean ++ quant 2 (x.tHi * 10) ++ quant 2 (x.tLo * 10) ++ quantU 4 x.iCmd ++ quantU 4 x.iDis ++
      quantU 4 x.timer ++ quantU 4 (timerLimit s p x.charge) ++ quantU 2 (x.soc * 256) ++ quantU 2 (x.rBank * 10) ++
      quantU 2 x.vInf ++ le16 x.faultWord ++ quant 8 x.coulomb ++ quant 8 x.energy ++ zeros 8

/-- Values of the populated segments, the rest 0. -/
def cellList (s : State) (p : Fin 4) (f : Nat → Q) : List Byte :=
  (List.range 16).flatMap fun k => if k < s.bat[p].nSeg then quantU 2 (f k) else [0, 0]

def cellMv (s : State) (p : Fin 4) (k : Nat) : Q := (cellVolts s p).getD k 0

/-- I_PLAT in mA, all ones when infinite. -/
def platField (x : Bat) : List Byte :=
  match x.iPlat with | some i => quantU 4 i | none => [0xFF, 0xFF, 0xFF, 0xFF]

/-- A state of health in 1/256 %, 0xFFFF when not reported. -/
def sohField (v : Option Q) : List Byte :=
  match v with | some q => quantU 2 (q * 256) | none => [0xFF, 0xFF]

/-- The cell block of a port, 64 bytes (R234, R386). -/
def cellBlock (s : State) (p : Fin 4) : List Byte :=
  if !batEn s p || gangLow s p ≠ p then zeros 64
  else
    let x := s.bat[p]
    cellList s p (cellMv s p) ++ le16 x.bleed ++ le16 x.ovpMask ++ le16 x.openMask ++ [byte (ovpCode x.ovp), byte x.nSeg] ++
      platField x ++ [byte x.platTerm.val, 0] ++ sohField x.sohR ++ sohField x.sohC ++ zeros 14

/-- A load port's 8 bytes (R282, R386). -/
def loadBlock (s : State) (p : Fin 32) : List Byte :=
  if !loadEn s p then zeros 8
  else
    let l := s.load[p]
    [byte (loadStateCode l.state), byte (bits [l.commanded, loadIsShed s p, safeMask s p, s.ride.low])] ++
      quantU 2 (l.vPol / 10) ++ quant 4 l.iPol

/-- State of a sensor (R322). -/
def sensorState (s : State) (i : Fin 20) : Nat :=
  let x := s.therm.sensors[i]
  if x.failed then (match x.failKind.val with | 1 => 2 | 2 => 3 | _ => 1)
  else if crossChecked s i then 0 else 4

/-- The flags of R322: every on-die sensor shows the junction's throttle state (R317). -/
def sensorFlags (s : State) (i : Fin 20) : Nat :=
  let x := s.therm.sensors[i]
  bits [x.warning, if i.val < 12 then s.therm.tjThrottle else x.throttle, x.shutdown]

def thermBlock (s : State) : List Byte :=
  (List.finRange 20).flatMap (fun i => quant 2 (s.therm.sensors[i].used * 10)) ++
  (List.finRange 20).map (fun i => byte (sensorState s i + 16 * sensorFlags s i)) ++
  le16 s.therm.shutCnt.n ++ le16 s.therm.failCnt.n

def sumOver (n : Nat) (f : Fin n → Q) : Q := ((List.finRange n).map f).foldl (· + ·) 0

/-- Power of a USB port, positive towards the Ride. -/
def usbPower (s : State) (p : Fin 4) : Q := if usbEn s p then s.usb[p].pw.mean else 0

/-- The totals of the system block, mW: sources and sinks, banks, and loads with USB sources counted towards the load (R9, log 28). -/
def totalIn (s : State) : Q :=
  sumOver 8 (fun p => if srcEn s p then srcPower s.src[p] else 0) + sumOver 4 (fun p => if s.usb[p].source then 0 else usbPower s p)
def totalBat (s : State) : Q := sumOver 4 fun p => if batEn s p && gangLow s p = p then mwOf s.bat[p].vBank.mean s.bat[p].iBank.mean else 0
def totalOut (s : State) : Q :=
  sumOver 32 (fun p => if loadEn s p then s.load[p].pPol else 0) - sumOver 4 (fun p => if s.usb[p].source then usbPower s p else 0)

/-- Sequence number of the newest Q2 event; 0 before the first. -/
def newestEvent (s : State) : Word := if s.warden.evSeq = 0 then 0 else s.warden.evSeq - 1

/-- The system block, 64 bytes. -/
def systemBlock (s : State) (seq : Word) : List Byte :=
  pad 64 (le64 s.tb ++ le32 seq ++ quantU 2 (s.ride.meas.mean / 10) ++ quantU 2 (s.ride.present / 10) ++
    [byte s.ride.tier.val, byte (tapCode s.tap.state)] ++ quantU 2 (s.therm.theta * 256) ++ quant 2 (s.therm.tj * 10) ++
    quantU 2 s.vcc.mean ++ quantU 2 (s.vdrv.mean / 10) ++ [s.ride.shed, 0] ++ le32 (newestEvent s) ++ le16 s.ride.ovCnt.n ++
    le16 s.tap.trips.n ++ quant 4 (totalIn s / 10) ++ quant 4 (totalBat s / 10) ++ quant 4 (totalOut s / 10))

/-- The 1280 bytes of the snapshot (R386). -/
def snapshotBytes (s : State) (seq : Word) : List Byte :=
  systemBlock s seq ++ (List.finRange 8).flatMap (srcBlock s) ++ (List.finRange 4).flatMap (usbBlock s) ++
  (List.finRange 4).flatMap (batBlock s) ++ (List.finRange 4).flatMap (cellBlock s) ++ (List.finRange 32).flatMap (loadBlock s) ++
  thermBlock s

/-! ### Refresh, swap, records (R385, R405, R447) -/

/-- The newest refresh, swapped or not; the snapshot's bytes lie at offsets from 0x2000. -/
def newestSnap (s : State) : Mem := s.snap.due.getD s.snap.front

/-- Telemetry kinds: first byte offset and length of each body. -/
def kindBody (k : Nat) : Nat × Nat :=
  match k with
  | 1 => (0, 0x40) | 2 => (0x40, 0x100) | 3 => (0x140, 0x80) | 4 => (0x1C0, 0x100) | 5 => (0x2C0, 0x100) | 6 => (0x3C0, 0x100)
  | _ => (0x4C0, 0x40)

/-- A record's bytes, whole entries of 64. -/
def tlmBytes (s : State) (k : Nat) : List Byte :=
  let (off, n) := kindBody k
  let body := memReadN (newestSnap s) off n
  let e := (16 + n + 63) / 64
  pad (64 * e) (le32 s.mbox.tlmSeq ++ [byte k, byte e] ++ le16 s.mbox.tlmLost ++ memReadN (newestSnap s) 0 8 ++ body)

/-- One record pushed, or dropped with its number consumed (R329, R405). -/
def pushTlm (k : Nat) (s : State) : State :=
  let bs := tlmBytes s k
  let seq := s.mbox.tlmSeq + 1
  if recordEntries 3 bs ≤ credit 3 s.ring[3] then
    armAlert s (putRing 3 (place 3 bs s.ring[3]) { s with mbox := { s.mbox with tlmSeq := seq, tlmLost := 0 } })
  else
    let lost := if s.mbox.tlmLost = 0xFFFF then 0xFFFF else s.mbox.tlmLost + 1
    dropRecord 3 { s with mbox := { s.mbox with tlmSeq := seq, tlmLost := lost } }

/-- Records of the kinds of a mask, in kind order, each at most once from a refresh (R447). -/
def pushKinds (m : BitVec 7) (s : State) : State :=
  let l := (List.range 7).filter fun i => m.getLsbD i && !s.mbox.tlmDone.getLsbD i
  each l (fun i s => pushTlm (i + 1) { s with mbox := { s.mbox with tlmDone := putBit s.mbox.tlmDone i true } }) s

def enabledKinds (s : State) : BitVec 7 := BitVec.ofInt 7 (param s 0x804)

/-- The buffers swap: SNAP_SEQ increments. -/
def swapSnap (s : State) : State :=
  match s.snap.due with
  | some m => { s with snap := { front := m, due := none, seq := s.snap.seq + 1 } }
  | none => s

/-- A refresh: the back buffer is filled; the swap waits while a host transfer reads the snapshot. TELEMETRY_NOW's records
follow it. -/
def refreshSnap (hostReading : Bool) (s : State) : State :=
  let s0 := swapSnap s
  let m := memWriteN [] 0 (snapshotBytes s0 (s0.snap.seq + 1))
  let s1 := { s0 with snap := { s0.snap with due := some m }, mbox := { s0.mbox with tlmNow := 0, tlmDone := 0 } }
  let s2 := if s.mbox.ready then pushKinds s.mbox.tlmNow s1 else s1
  if hostReading then s2 else swapSnap s2

def execSnapshotSwapDeferred (s : State) : Host.Outcome State Fault Refusal := .next (swapSnap s)

/-- R405: the period is off at 0; before the first refresh the bodies are 0 (R385). -/
def execTelemetryPeriod (s : State) : Host.Outcome State Fault Refusal :=
  .next (if s.mbox.ready && param s 0x803 ≠ 0 then pushKinds (enabledKinds s) s else s)

end Sys2Proof.Machine
end

