-- ==== Sys2Proof/Machine/CmdPorts.lean ====
section
/-! DEFINITION. The commands on channels and ports: CHANNEL_CONTROL, ANNEAL, LOOP_READ, the port reads, the charger's, the
cells' and the load ports' commands (R429 to R444). -/

namespace Sys2Proof.Machine
open Sys2Proof

/-- Counters as a read gives them: 2 bytes each, then a byte of saturated flags. -/
def cntBytes (l : List Cnt) : List Byte := l.flatMap fun c => le16 c.n
def satFlags (l : List Cnt) : Byte := byte (bits (l.map (·.sat)))

/-- A command on one port, its only field. -/
def onPort (kind : Nat) (act : Nat → State → Reply) (c : Cmd) (s : State) : Reply :=
  match portCheck s kind (c.u8 0) with
  | some st => refuse st s
  | none => act (c.u8 0) s

def portRow (op kind : Nat) (reads : Bool) (act : Nat → State → Reply) : CmdRow :=
  { op := op, reads := reads, lenOk := fun c => c.len = 1, run := onPort kind act }

/-! ### CHANNEL_CONTROL (R429, R430) -/

/-- A stop that Warden itself applies to a channel: its thermal shutdown, a lost group's, an NTC's, the cut-off of a port in
hold, Device-stop (R205, R306, R319, R321, R492, R498). -/
def wardenStop : Stop → Bool
  | .thermalWarden | .wardenPort | .hold | .ntc _ | .deviceStop => true
  | _ => false

/-- Warden holds a channel stopped: by a stop of its own, by a standing fault of its port or its channel's last phase, or with
its source engine. A hiccup latch is not one: the channel is marked on and stays Latched (R20, R457). -/
def wardenHolds (s : State) (c : Fin 16) : Bool :=
  let l := chanLow s c
  let (k, i) := portUnit l
  let rest := { s with warden := { s.warden with standing := s.warden.standing.filter fun f => f.rep.checker ≠ 0x11 } }
  portHeld rest k i (some l) || s.chan[l].stops.any wardenStop || (decide (l.val < 12) && s.eng[engineOf s l].failed)

/-- A gang off: at its ring's next boundary (R430); at once where the ring does not run. -/
def channelOff (c : Fin 16) (s : State) : State :=
  let l := chanLow s c
  if s.chan[l].offByCmd then s
  else if switching s l then each (chanGang s c) (fun d => onChan d (fun h => { h with offByCmd := true, offDue := true })) s
  else takeOff l s

/-- A gang on again: before its off has taken effect it runs on; else Soft-start once no stop is left, a latch stands, and a channel
that its owner has off, or that R207 holds off, waits for it. -/
def channelOn (c : Fin 16) (s : State) : State :=
  let l := chanLow s c
  let h := s.chan[l]
  let s1 := each (chanGang s c) (fun d => onChan d (fun h => { h with offByCmd := false, offDue := false })) s
  if !h.offByCmd || h.offDue || h.hic = .latched then s1
  else if h.enabled && chanAllowed s l then softStart l (portVolt s l) s1
  else onChan l (fun h => { h with hic := .switching, enabled := h.enabled && chanAllowed s l }) s1

def chansOf (m : Nat) : List (Fin 16) := (List.finRange 16).filter fun c => m.testBit c.val

def runChannelControl (c : Cmd) (s : State) : Reply :=
  let l := chansOf (c.u16 0)
  let on := c.u8 2
  if l.any fun d => !chanEnabled s d then refuse stDisabled s
  else if 1 < on then refuse stRange s
  else if on = 1 && l.any (wardenHolds s) then refuse stHold s
  else
    let s1 := each l (if on = 1 then channelOn else channelOff) s
    done (le 2 (maskOf 16 fun d => s1.chan[d].offByCmd : Nat)) s1

def rowChannelControl : CmdRow :=
  { op := 0x0200, reads := false, lenOk := fun c => c.len = 3, stateOk := fun s c => s.dev ≠ .deviceStop || c.u8 2 ≠ 1, run := runChannelControl }

/-! ### ANNEAL, LOOP_READ (R431, R432) -/

def runAnneal (c : Cmd) (s : State) : Reply :=
  let l := chansOf (c.u16 0)
  if l.any fun d => !chanEnabled s d then refuse stDisabled s
  else
    let lows := (List.finRange 16).filter fun d => l.any fun e => chanLow s e = d
    let q := maskOf 16 fun d => lows.contains (chanLow s d)
    done (le 2 (q : Nat)) (each lows (fun d => annTrigger d .command) s)

def rowAnneal : CmdRow := { op := 0x0201, reads := false, lenOk := fun c => c.len = 2, stateOk := notDeviceStop, run := runAnneal }

/-- Nearest whole number, halves to even. -/
def roundEven (q : Q) : Nat :=
  let f := q.floor.toNat
  let r := q - f
  if r < 1 / 2 then f else if 1 / 2 < r then f + 1 else f + f % 2

/-- The IEEE 754 single-precision value nearest to a quantity (R432). -/
def single (q : Q) : Word :=
  if q = 0 then 0
  else
    let a := q.abs
    let e0 : Int := (Nat.log2 a.num.natAbs : Int) - (Nat.log2 a.den : Int)
    let e := max (-126) (if a < twoTo e0 then e0 - 1 else e0)
    let m := roundEven (a / twoTo (e - 23))
    let w := if m < 8388608 then m else (e + 126).toNat * 8388608 + m
    BitVec.ofNat 32 (min w 0x7F800000 + if q < 0 then 0x80000000 else 0)

def modelBytes (m : Plant) : List Byte :=
  quantU 4 m.l ++ quantU 4 m.rl ++ quantU 4 m.esr ++ quantU 4 m.c ++ quant 4 m.g ++ quantU 4 m.fc ++ quantU 2 m.pm ++ quantU 2 m.gm

def loopRead (i : Nat) (s : State) : Reply :=
  let c := chanLow s (fin16 i)
  let h := s.chan[c]
  done ([byte h.origin.val, byte (nHealthy s c), h.coef.gain.zeroExtend 8, 0] ++ modelBytes h.plant ++
    le32 (single h.coef.kp) ++ le32 (single h.coef.ki) ++ le32 (single h.coef.kd) ++ le32 (single h.coef.wp) ++ le64 h.ann.done) s

def rowLoopRead : CmdRow := portRow 0x0202 5 true loopRead

/-! ### SOURCE_READ (R433) -/

def srcCounters (x : Src) : List Cnt := [x.cWithdraw, x.cQualFail, x.cUndet, x.cOv, x.cScan, x.cSwell]

def sourceRead (i : Nat) (s : State) : Reply :=
  let p := fin8 i
  let x := s.src[p]
  let wave := srcClass s p = 2
  done (srcBlock s p ++ quantU 4 (if wave then x.rg * 10 else 0) ++ quantU 2 (if wave then x.match_ * 256 else 0) ++
    cntBytes (srcCounters x) ++ [satFlags (srcCounters x), 0]) s

def rowSourceRead : CmdRow := portRow 0x0300 1 true sourceRead

/-! ### BATTERY_READ, CHARGER_STATUS, CHARGER_CLEAR, EQUALISE (R434 to R437) -/

def batCounters (x : Bat) : List Cnt := [x.cTerm, x.cDormant, x.cCut, x.cDisturb, x.cFitFail, x.cQualFail]

def batteryRead (i : Nat) (s : State) : Reply :=
  let p := gangLow s (fin4 i)
  let x := s.bat[p]
  let k := phaseScale s (chanOfBat p)
  done (batBlock s p ++ quantU 8 x.chgThru ++ quantU 8 x.disThru ++ cntBytes (batCounters x) ++ [satFlags (batCounters x), 0] ++
    quantU 4 x.iProg ++ quantU 4 (k * x.iCmd) ++ quantU 4 (k * x.iDis)) s

def rowBatteryRead : CmdRow := portRow 0x0400 3 true batteryRead

/-- The fault word is cleared as it is returned. -/
def chargerStatus (i : Nat) (s : State) : Reply :=
  let p := gangLow s (fin4 i)
  let x := s.bat[p]
  done (le16 x.faultWord ++ [byte (chargeCode x.charge), byte (disCode (disOf s p)), byte (b2n (s.aon.dormant.getLsbD p.val)), 0, 0, 0])
    (onBat p (fun x => { x with faultWord := 0 }) s)

def rowChargerStatus : CmdRow := portRow 0x0401 3 true chargerStatus

/-- R199, R436: out of Dormant into Qualification, with the event of the table "Battery events"; its contents have no cause
coded by the spec. -/
def leaveDormant (p : Fin 4) (s : State) : State :=
  let s1 := { s with aon := { s.aon with dormant := putBit s.aon.dormant p.val false } }
  pushEvent 0x0406 [byte p.val, Config.eventCode 0x0406 0]
    (onBat p (fun x => { x with afterClear := !x.tapStop }) (enterQual p .command s1))

def chargerClear (i : Nat) (s : State) : Reply :=
  let p := gangLow s (fin4 i)
  if s.bat[p].charge = .dormant then done [] (leaveDormant p s) else refuse stState s

def rowChargerClear : CmdRow := { portRow 0x0402 3 false chargerClear with stateOk := notDeviceStop }

/-- A refused equalise raises its event, but not under DRY_RUN. -/
def equalise (i : Nat) (s : State) : Reply :=
  let p := gangLow s (fin4 i)
  let c := s.bat[p].charge
  if chem s p ≠ 4 then refuse stRegion s
  else if c = .off || c = .dormant || c = .dischargeOnly || c = .hold then refuse stState s
  else if equaliseRefused s p then ⟨0x0100, [], makeEqualiseDue p s⟩
  else done [] (makeEqualiseDue p s)

def rowEqualise : CmdRow := { portRow 0x0403 3 false equalise with stateOk := notDeviceStop }

/-! ### CELL_READ, OVP_CLEAR (R438, R439) -/

def cellCounters (x : Bat) : List Cnt := [x.cTrips, x.cTap, x.cProbe]

def cellRead (i : Nat) (s : State) : Reply :=
  let p := gangLow s (fin4 i)
  let x := s.bat[p]
  let at_ (v : Vector Q 16) (k : Nat) (n : Q) : Q := v.toList.getD k 0 * n
  done (cellList s p (cellMv s p) ++ cellList s p (fun k => at_ x.rOhm k 100) ++ cellList s p (fun k => at_ x.r25 k 100) ++
    cellList s p (fun k => at_ x.cellInf k 1) ++ le16 x.bleed ++ le16 x.ovpMask ++ le16 x.openMask ++
    [byte (ovpCode x.ovp), byte x.nSeg, byte (cps s p), byte (recentTrips s.tb x.ovpTrips).length] ++
    quantU 2 (vOvp s p) ++ quantU 2 (vOvp s p - 100 : Int) ++ platField x ++ [byte x.platTerm.val, 0] ++
    sohField x.sohR ++ sohField x.sohC ++ cntBytes (cellCounters x) ++ cellList s p (fun k => at_ x.bleedHours k 1)) s

def rowCellRead : CmdRow := portRow 0x0500 3 true cellRead

/-- The host's clear of R221; it closes the fault. -/
def ovpClear (i : Nat) (s : State) : Reply :=
  let p := gangLow s (fin4 i)
  match s.bat[p].ovp with
  | .armed => refuse stState s
  | .clearable =>
    let s1 := closeFor 0x20 3 (byte p.val) 0 (releaseOvp p 0 s)
    done [byte (ovpCode s1.bat[p].ovp)] s1
  | _ => refuse stClear s

def rowOvpClear : CmdRow := { portRow 0x0501 3 false ovpClear with stateOk := notDeviceStop }

/-! ### USB_READ (R440) -/

def usbCounters (u : Usb) : List Cnt := [u.cAttach, u.cHrSent, u.cHrRecv, u.cSoft, u.cTxFail, u.cSwap, u.cShed, u.cOv]

/-- The PD revision in use: none without an explicit contract. -/
def pdRevision (u : Usb) : Nat :=
  match u.contract.kind with
  | .none | .implicit => 0
  | _ => if u.pd20 then 2 else 3

def usbRead (i : Nat) (s : State) : Reply :=
  let p := fin4 i
  let u := s.usb[p]
  done (usbBlock s p ++ cntBytes (usbCounters u) ++ [satFlags (usbCounters u), byte (pdRevision u), 0, 0] ++
    le32 u.contract.pdo ++ le32 u.contract.rdo) s

def rowUsbRead : CmdRow := portRow 0x0600 2 true usbRead

/-! ### LOAD_SET, LOAD_CLEAR, LOAD_READ (R441 to R444) -/

def loadsOf (m : Nat) : List (Fin 32) := (List.finRange 32).filter fun p => m.testBit p.val

def loadSet (m on : Nat) (s : State) : State :=
  loadRefresh (each (loadsOf m) (fun p => onLoad p (fun l => { l with commanded := on.testBit p.val })) s)

def rowLoadSet : CmdRow :=
  { op := 0x0700, reads := false, lenOk := fun c => c.len = 8,
    run := fun c s =>
      if (loadsOf (c.u32 0)).any fun p => !loadEn s p then refuse stDisabled s
      else
        let s1 := loadSet (c.u32 0) (c.u32 4) s
        done (le 4 (maskOf 32 fun p => s1.load[p].commanded : Nat)) s1 }

/-- A latched port cleared, and its fault closed (R278). -/
def loadClear (p : Fin 32) (s : State) : State := closeFor 0x28 4 (byte p.val) 0 (clearLoadLatch p s)

def rowLoadClear : CmdRow :=
  { op := 0x0701, reads := false, lenOk := fun c => c.len = 4,
    run := fun c s =>
      let l := loadsOf (c.u32 0)
      if l.any fun p => !loadEn s p then refuse stDisabled s
      else
        let hit := l.filter fun p => s.load[p].state = .latched
        done (le 4 (maskOf 32 hit.contains : Nat)) (each hit loadClear s) }

def loadCounters (l : Load) : List Cnt := [l.cFast, l.cLimit, l.cSoft, l.cLatch, l.cShed]

def loadRead (i : Nat) (s : State) : Reply :=
  let p := fin32 i
  let l := s.load[p]
  done (loadBlock s p ++ quant 8 l.energy ++ [byte l.retry, 0] ++ cntBytes (loadCounters l) ++
    [satFlags (loadCounters l), byte l.cls.val, 0, 0]) s

def rowLoadRead : CmdRow := portRow 0x0702 4 true loadRead

/-! ### The rows -/

def execChannelControl (s : State) : Host.Outcome State Fault Refusal := .next (takeCommand rowChannelControl s)
def execAnneal (s : State) : Host.Outcome State Fault Refusal := .next (takeCommand rowAnneal s)
def execLoopRead (s : State) : Host.Outcome State Fault Refusal := .next (takeCommand rowLoopRead s)
def execSourceRead (s : State) : Host.Outcome State Fault Refusal := .next (takeCommand rowSourceRead s)
def execBatteryRead (s : State) : Host.Outcome State Fault Refusal := .next (takeCommand rowBatteryRead s)
def execChargerStatus (s : State) : Host.Outcome State Fault Refusal := .next (takeCommand rowChargerStatus s)
def execChargerClear (s : State) : Host.Outcome State Fault Refusal := .next (takeCommand rowChargerClear s)
def execEqualise (s : State) : Host.Outcome State Fault Refusal := .next (takeCommand rowEqualise s)
def execCellRead (s : State) : Host.Outcome State Fault Refusal := .next (takeCommand rowCellRead s)
def execOvpClear (s : State) : Host.Outcome State Fault Refusal := .next (takeCommand rowOvpClear s)
def execUsbRead (s : State) : Host.Outcome State Fault Refusal := .next (takeCommand rowUsbRead s)
def execLoadSet (s : State) : Host.Outcome State Fault Refusal := .next (takeCommand rowLoadSet s)
def execLoadClear (s : State) : Host.Outcome State Fault Refusal := .next (takeCommand rowLoadClear s)
def execLoadRead (s : State) : Host.Outcome State Fault Refusal := .next (takeCommand rowLoadRead s)

end Sys2Proof.Machine
end

