-- ==== Sys2Proof/Machine/CmdDiag.lean ====
section
/-! DEFINITION. The Assay, telemetry, thermal, fault, security and diagnostic commands (R445 to R456, R484, R485, R503). -/

namespace Sys2Proof.Machine
open Sys2Proof

/-! ### ASSAY_SAMPLE (R445) -/

/-- A segment input of group D. -/
def segInput (g i : Nat) : Bool := g = 3 && decide (i < 16)

/-- Inputs of a request of so many bytes from an offset. -/
def inputsOf (c : Cmd) (o n : Nat) : List Nat := (List.range n).map fun i => c.u8 (o + i)

/-- The number of a result in the units of R445, at nominal front-end scales: µV at the pin or across the sense, 0.001 °C
of an on-die sensor, 1/65 536 of bias of an NTC (log 22). -/
def sampleValue (s : State) (g : Fin 4) (inp v : Nat) (port : Option (Fin 4)) : Q :=
  let phase (c : Fin 16) : Q := bip (11 / 10 * (senseFs (chanKey s 0x280 c) : Q)) v * 1000
  if 44 ≤ inp then uni 2500 v * 1000
  else match g.val with
    | 0 => if inp < 8 then uni 90000 v * 1000 else if inp < 16 then phase (fin16 (inp - 8)) else uni 90000 v * 1000
    | 1 =>
      if inp < 4 then uni 90000 v * 1000 else if inp < 8 then phase (fin16 (4 + inp)) else if inp = 8 then uni 90000 v * 1000
      else if inp = 10 then uni 16000 v * 1000 else if inp < 12 then uni 6400 v * 1000
      else if inp < 28 then uni 64000 v * 1000 else uni 250 v * 1000
    | 2 =>
      if inp < 28 then phase (chanOfPhase (Fin.ofNat 28 inp)) else if inp < 32 then bip 125 v * 1000 else uni 90000 v * 1000
    | _ =>
      if inp < 16 then uni (match port with | some p => if cps s p = 1 then 5000 else 18000 | none => 18000) v * 1000
      else if inp < 28 then uni 205000 v - 55000 else if inp < 36 then uni 65536 v else uni 72000 v * 1000

/-- The set of entry 59 and its slots. -/
def sampleSet (s : State) (g : Fin 4) (is : List Nat) (port : Option (Fin 4)) : SetRun :=
  { entry := 59, inputs := is.map fin48, convs := healthyConvs s g, tags := tagsFrom 0 is.length,
    count := s.group[g].entries[(59 : Fin 64)].count + 1, port := port, start := s.tb }

/-- The record written, and for a group other than B its copy pushed to Q9 (R23, R445). -/
def runSample (g : Fin 4) (is : List Nat) (port : Option (Fin 4)) (codes : List (BitVec 12)) (s : State) : List Byte × State :=
  let r := sampleSet s g is port
  let s1 := onGroup g (fun x => { x with entries := upd x.entries 59 fun t => { t with count := t.count + 1 },
                                         selected := port.getD x.selected }) s
  let sl := slotsOf s1 g r codes
  let s2 := writeRecord g r sl 0 false true s1
  let rec' := recordBytes sl r.start 59 r.count (recordFlags sl (sl.map fun y => parityOf y.word) false false false
    s1.group[g].entries[(59 : Fin 64)].missed false s1.group[g].lowPower true)
  let s3 := if g = 1 then s2
            else pushReaction 7 0 0 (rec'.take 12) (BitVec.ofNat 64 (ofLe (slice rec' 12 4))) [] s2
  let vals := (List.range 4).flatMap fun i =>
    match is[i]?, sl[i]? with
    | some inp, some y => if y.valid then quant 4 (sampleValue s g inp (y.word.toNat % 4096) port) else zeros 4
    | _, _ => zeros 4
  (rec' ++ vals, s3)

def runAssaySample (codes : List (BitVec 12)) (ran : Bool) (c : Cmd) (s : State) : Reply :=
  let gn := c.u8 0; let n := c.u8 1; let pt := c.u8 2
  let g := fin4 gn
  let is := inputsOf c 4 n
  let seg := is.any (segInput gn)
  if 4 ≤ gn || n = 0 || 4 < n || (4 ≤ pt && pt ≠ 0xFF) || c.u8 3 ≠ 0 then refuse stRange s
  else if !(is.all fun i => decide (i < 48) && inputDefined g i) || (inputsOf c (4 + n) (4 - n)).any (· ≠ 0) || (seg && pt = 0xFF) then
    refuse stRange s
  else if s.group[g].lost then refuse stState s
  else if kOf s g < n || is.any (fun i => s.group[g].failedIn.getLsbD i) then refuse stUnit s
  else if !ran then refuse 0x0100 s
  else
    let (d, t) := runSample g is (if pt = 0xFF then none else some (fin4 pt)) codes s
    done d t

def rowAssaySample (codes : List (BitVec 12)) (ran : Bool) : CmdRow :=
  { op := 0x0800, reads := false, lenOk := fun c => c.len = 8, run := runAssaySample codes ran }

/-! ### ASSAY_STATUS, TELEMETRY_NOW, THERMAL_READ (R446 to R448) -/

def bitsBytes (n : Nat) (l : List Bool) : List Byte := le n (bits l : Nat)

def assayStatus (s : State) (g : Fin 4) : List Byte :=
  let x := s.group[g]
  [byte (bits ((groupConvs g).map fun c => s.conv[c].healthy)), byte (b2n x.lowPower), 0, 0] ++
  bitsBytes 8 (x.entries.toList.map (·.suspended)) ++ bitsBytes 8 (x.entries.toList.map (·.miss.sat)) ++
  le 6 (x.failedIn.toNat : Nat) ++ [0, 0] ++ x.entries.toList.flatMap fun e => le16 e.miss.n

def rowAssayStatus : CmdRow :=
  { op := 0x0801, reads := true, lenOk := fun c => c.len = 1,
    run := fun c s => if 4 ≤ c.u8 0 then refuse stRange s else done (assayStatus s (fin4 (c.u8 0))) s }

def rowTelemetryNow : CmdRow :=
  { op := 0x0802, reads := false, lenOk := fun c => c.len = 1,
    run := fun c s =>
      if 128 ≤ c.u8 0 then refuse stRange s
      else
        let m : BitVec 7 := if c.u8 0 = 0 then enabledKinds s else BitVec.ofNat 7 (c.u8 0)
        done [] { s with mbox := { s.mbox with tlmNow := s.mbox.tlmNow ||| m } } }

/-- The reading before substitution; 0x8000 when open, shorted or not read. -/
def rawField (x : Sensor) : List Byte :=
  match x.raw with
  | some t => if x.read then quant 2 (t * 10) else [0x00, 0x80]
  | none => [0x00, 0x80]

/-- The throttle term of a board NTC; T_J's term is no one sensor's. -/
def termField (s : State) (i : Fin 20) : List Byte :=
  let x := s.therm.sensors[i]
  if isBoard s i && !x.failed && x.read then quantU 2 (256 * thetaTerm x.used (ntcThr s 0x918 i) (ntcThr s 0x920 i)) else [0xFF, 0xFF]

def thermalRead (s : State) : List Byte :=
  (List.finRange 20).flatMap (fun i =>
    rawField s.therm.sensors[i] ++ quant 2 (s.therm.sensors[i].used * 10) ++ [byte (sensorState s i), byte (sensorFlags s i)] ++ termField s i) ++
  quantU 2 (s.therm.theta * 256) ++ quant 2 (s.therm.tj * 10)

def rowThermalRead : CmdRow := { op := 0x0900, reads := true, lenOk := fun c => c.len = 0, run := fun _ s => done (thermalRead s) s }

/-! ### FAULT_LIST, FAULT_CLEAR (R449, R450) -/

def descriptor (s : State) (f : FaultRec) : List Byte :=
  le16 f.id ++ [clsCode f.cls, f.rep.checker, f.rep.unitKind, f.rep.unitIdx,
    byte (bits [causePresent s f, clearable s f, f.resetOnly, f.injected]), f.occ] ++ le64 f.tb

def faultList (start classes : Nat) (s : State) : List Byte :=
  let l := s.warden.standing.filter fun f => classes = 0 || classes.testBit (clsRank f.cls)
  let d := (l.drop start).take 15
  le 2 (l.length : Nat) ++ [byte d.length, 0] ++ d.flatMap (descriptor s)

def rowFaultList : CmdRow :=
  { op := 0x0A00, reads := true, lenOk := fun c => c.len = 3,
    run := fun c s => if 16 ≤ c.u8 2 then refuse stRange s else done (faultList (c.u16 0) (c.u8 2) s) s }

/-- Faults of a unit that stand. -/
def unitFaults (s : State) (k i : Byte) : List FaultRec := s.warden.standing.filter fun f => f.rep.unitKind = k && f.rep.unitIdx = i

/-- The faults of a list cleared in turn, each judged as it stands then; how many were. Warden confirms each (R450). -/
def clearList (l : List FaultRec) (s : State) : Nat × State :=
  l.foldl (fun a f =>
    match a.2.warden.standing.find? fun g => g.id = f.id with
    | some g => if clearable a.2 g && a.2.warden.alive then (a.1 + 1, clearFault g 0 a.2) else a
    | none => a) (0, s)

def clearReply (l : List FaultRec) (k i : Byte) (s : State) : Reply :=
  let (n, t) := clearList l s
  if n = 0 then refuse stClear s else done [byte (min 255 n), byte (min 255 (unitFaults t k i).length)] t

def runFaultClear (c : Cmd) (s : State) : Reply :=
  let id := c.u16 0; let k := c.u8 2; let i := c.u8 3
  if id = 0xFFFF then
    if unitCount k ≤ i then refuse stRange s else clearReply (unitFaults s (byte k) (byte i)) (byte k) (byte i) s
  else if k ≠ 0 || i ≠ 0 then refuse stRange s
  else match s.warden.standing.find? fun f => f.id.toNat = id with
    | some f => clearReply [f] f.rep.unitKind f.rep.unitIdx s
    | none => refuse stRange s

def rowFaultClear : CmdRow := { op := 0x0A01, reads := false, lenOk := fun c => c.len = 4, run := runFaultClear }

/-! ### ATTEST (R451) -/

/-- Bytes 0 to 151 of an attestation. -/
def attestBody (nonce : List Byte) (s : State) : List Byte :=
  let (a, b, p) := fwVersion s
  pad 64 Config.identity ++ le64 Config.dieId ++
  [0xA1, byte a, byte b, byte (bits [p, s.par.trial.isSome, s.wires.secure, s.wires.debugLock]), byte s.par.inForce.val, 0, 0, 0] ++
  (if s.mbox.patched.isSome then pad 32 s.mbox.patchDig else zeros 32) ++ nonce ++ le64 s.tb

def runAttest (c : Cmd) (s : State) : Reply :=
  if !attestable s then refuse 0x0100 s
  else
    let m := attestBody c.body s
    done (m ++ pad 64 (Config.signature s.free (sha256 m))) { s with free := s.free + 1 }

def rowAttest : CmdRow := { op := 0x0B00, reads := true, lenOk := fun c => c.len = 32, run := runAttest }

/-! ### PATCH_STAGE, PATCH_APPLY (R452, R453, R484, R485) -/

def runPatchStage (c : Cmd) (s : State) : Reply :=
  let off := c.u32 0
  let bs := c.body.drop 4
  if off % 4 ≠ 0 || 65532 < off || 65536 < off + bs.length then refuse stRange s
  else if off = 0 && s.mbox.patched.isSome then refuse stState s
  else
    let (m, n) := stageAt off bs s.mbox.patch s.mbox.patchLen
    done (le 4 (n : Nat)) { s with mbox := { s.mbox with patch := m, patchLen := n } }

def rowPatchStage : CmdRow :=
  { op := 0x0B01, reads := false, lenOk := fun c => decide (8 ≤ c.len) && decide (c.len ≤ 244) && (c.len - 4) % 4 = 0,
    run := runPatchStage }

/-- The staged patch. -/
def patchBytes (s : State) : List Byte := memReadN s.mbox.patch 0 s.mbox.patchLen

/-- One section of the layout: its kind, and its place between the section table and the signature. -/
def sectionOk (bs : List Byte) (count plen i : Nat) : Bool :=
  let o := 0x10 + 16 * i
  let off := ofLe (slice bs (o + 4) 4); let len := ofLe (slice bs (o + 8) 4)
  decide ((byteAt bs o).toNat ≤ 2) && (slice bs (o + 1) 3).all (· = 0) && (slice bs (o + 12) 4).all (· = 0) &&
  decide (0x10 + 16 * count ≤ off) && decide (off + len ≤ plen - 64)

/-- The layout of a patch, its silicon and its base firmware (R484). -/
def patchForm (bs : List Byte) : Bool :=
  let plen := ofLe (slice bs 12 4); let count := ofLe (slice bs 10 2)
  ofLe (slice bs 0 4) = 0x1D0C7150 && byteAt bs 4 = 0xA1 && slice bs 5 2 = [2, 1] && slice bs 7 2 ≠ [2, 1] &&
  decide (byteAt bs 9 < 4) && decide (1 ≤ count) && decide (count ≤ 8) && bs.length = plen && plen % 4 = 0 && decide (plen ≤ 65536) &&
  decide (0x10 + 16 * count + 64 ≤ plen) && (List.range count).all (sectionOk bs count plen)

def patchKeyIdx (bs : List Byte) : Nat := (byteAt bs 9).toNat

/-- The signing position may sign a patch, and the signature verifies (R477, R485). -/
def patchSigned (s : State) (bs : List Byte) : Bool :=
  let n := bs.length - 64
  patchKeyOk s (patchKeyIdx bs) && Config.sigVerifies (digestOf s (patchKeyIdx bs)) (sha256 (slice bs 0 n)) (slice bs n 64)

def runPatchApply (c : Cmd) (s : State) : Reply :=
  let bs := patchBytes s
  if !c.confirmed then refuse stRange s
  else if !patchForm bs then refuse 0x0101 s
  else if !patchSigned s bs then refuse stSecurity s
  else done [byte (patchKeyIdx bs)] { s with mbox := { s.mbox with patchDue := true, restartDue := true } }

def rowPatchApply : CmdRow :=
  { op := 0x0B02, reads := false, lenOk := fun c => c.len = 2, stateOk := fun s c => notDeviceStop s c && !burnRuns s, run := runPatchApply }

/-! ### KEY_REVOKE (R454) -/

/-- Held and not revoked. -/
def keyLive (s : State) (i : Nat) : Bool := keyHeld s i && !keyRevoked s i

/-- A key other than the revoked one authorises the revocation. -/
def revokeAuth (s : State) (idx : Nat) (auth : List Byte) : Bool :=
  let d := sha256 (le64 Config.dieId ++ [byte idx])
  (List.range 4).any fun i => i ≠ idx && keyLive s i && Config.sigVerifies (digestOf s i) d auth

def runKeyRevoke (c : Cmd) (s : State) : Reply :=
  let i := c.u8 2
  if !c.confirmed || 4 ≤ i || c.u8 3 ≠ 0 then refuse stRange s
  else if keyRevoked s i then refuse stSecurity s
  else if s.wires.secure && !((List.range 4).any fun j => j ≠ i && keyLive s j) then refuse 0x0100 s
  else if !revokeAuth s i (slice c.body 4 64) then refuse stSecurity s
  else if burnRuns s then refuse stBusy s
  else ⟨stStarted, [], beginBurn .revoke c (byte i) 0 s⟩

def rowKeyRevoke : CmdRow :=
  { op := 0x0B03, reads := false, standby := true, lenOk := fun c => c.len = 68, stateOk := notDeviceStop, run := runKeyRevoke }

/-! ### FAULT_INJECT, TEST_DAC (R455, R456, R503) -/

/-- An injection armed in the collector, in place of one not yet used. -/
def arm (checker : Byte) (n : Nat) (s : State) : State :=
  { s with fc := { s.fc with inject := (checker, n) :: s.fc.inject.filter fun e => e.1 ≠ checker } }

def rowFaultInject : CmdRow :=
  { op := 0x0C00, reads := false, lenOk := fun c => c.len = 4, stateOk := notDeviceStop,
    run := fun c s =>
      if c.u8 0 = 0 || 6 < c.u8 0 || c.u8 1 = 0 || 16 < c.u8 1 || c.u16 2 ≠ 0 then refuse stRange s
      else if s.wires.debugLock then refuse stSecurity s
      else done [] (arm (byte (c.u8 0)) (c.u8 1) s) }

/-- The corrected code of the i-th healthy converter. -/
def dacCode (s : State) (g : Fin 4) (codes : List (BitVec 12)) (i : Nat) : Option Nat :=
  match (healthyConvs s g)[i]?, codes[i]? with
  | some c, some x => some (corrected s.conv[c] x).1
  | _, _ => none

/-- The check's records: one of each healthy converter, as entry 61. -/
def dacRecords (g : Fin 4) (inp : Nat) (codes : List (BitVec 12)) (s : State) : State :=
  each ((healthyConvs s g).zip codes) (fun cx => singleRecord cx.1 61 inp cx.2 true) s

def runTestDac (codes : List (BitVec 12)) (ran : Bool) (c : Cmd) (s : State) : Reply :=
  let gn := c.u8 0; let inp := c.u8 1; let code := c.u16 2; let mode := c.u8 4
  let g := fin4 gn
  if 4 ≤ gn || 1024 ≤ code || 1 < mode || (slice c.body 5 3).any (· ≠ 0) then refuse stRange s
  else if mode = 1 && (44 ≤ inp || !inputDefined g inp) then refuse stRange s
  else if s.group[g].lost then refuse stState s
  else if !ran then refuse 0x0100 s
  else
    let v := (List.range 4).map (dacCode s g codes)
    let ok := v.map fun x => match x with | some y => decide (y ≤ 4 * code + 8) && decide (4 * code ≤ y + 8) | none => false
    done (v.flatMap (fun x => le 2 ((x.getD 0 : Nat) : Int)) ++ le 2 ((4 * code : Nat) : Int) ++ [byte (bits ok), 0])
      (dacRecords g (if mode = 0 then 44 else inp) codes s)

def rowTestDac (codes : List (BitVec 12)) (ran : Bool) : CmdRow :=
  { op := 0x0C01, reads := false, lenOk := fun c => c.len = 8, run := runTestDac codes ran }

/-! ### The rows -/

def execAssaySample (codes : List (BitVec 12)) (ran : Bool) (s : State) : Host.Outcome State Fault Refusal :=
  .next (takeCommand (rowAssaySample codes ran) s)
def execAssayStatus (s : State) : Host.Outcome State Fault Refusal := .next (takeCommand rowAssayStatus s)
def execTelemetryNow (s : State) : Host.Outcome State Fault Refusal := .next (takeCommand rowTelemetryNow s)
def execThermalRead (s : State) : Host.Outcome State Fault Refusal := .next (takeCommand rowThermalRead s)
def execFaultList (s : State) : Host.Outcome State Fault Refusal := .next (takeCommand rowFaultList s)
def execFaultClear (s : State) : Host.Outcome State Fault Refusal := .next (takeCommand rowFaultClear s)
def execAttest (s : State) : Host.Outcome State Fault Refusal := .next (takeCommand rowAttest s)
def execPatchStage (s : State) : Host.Outcome State Fault Refusal := .next (takeCommand rowPatchStage s)
def execPatchApply (s : State) : Host.Outcome State Fault Refusal := .next (takeCommand rowPatchApply s)
def execKeyRevoke (s : State) : Host.Outcome State Fault Refusal := .next (takeCommand rowKeyRevoke s)
def execFaultInject (s : State) : Host.Outcome State Fault Refusal := .next (takeCommand rowFaultInject s)
def execTestDac (codes : List (BitVec 12)) (ran : Bool) (s : State) : Host.Outcome State Fault Refusal :=
  .next (takeCommand (rowTestDac codes ran) s)

end Sys2Proof.Machine
end

