-- ==== Sys2Proof/Machine/Boot.lean ====
section
/-! DEFINITION. The boot from the release of Warden to READY (steps 4 to 9 of R511), the read passes of the one-time memory,
and the restart of Anvil (R33, R398, R453). -/

namespace Sys2Proof.Machine
open Sys2Proof

/-! ### Step 4: the clocks and Warden (R333, R334, R336) -/

/-- Root spread depth of key 0x0010, as a fraction of the frequency. -/
def keySpread (s : State) : Q := (param s 0x10 : Q) / 400

/-- TB goes on only through a reset-pin or host reset (R509). -/
def tbContinues (s : State) : Bool := s.tbRuns && (s.aon.cause = 3 || s.aon.cause = 4)

def releaseWarden (crystalValid : Bool) (s : State) : State :=
  { s with
    boot := .selfTest, tbRuns := true, tb := if tbContinues s then s.tb else 0,
    lastFrame := if tbContinues s then s.lastFrame else none,
    clk := { s.clk with pll := true, crystal := crystalValid, crystalLost := false, switchDue := false, spread := keySpread s },
    otp := { s.otp with window := true } }

def execWardenRelease (crystalValid : Bool) (s : State) : Host.Outcome State Fault Refusal :=
  .next (if s.dev = .boot && s.boot = .prot && !s.aon.resetNLow then releaseWarden crystalValid s else s)

/-! ### Steps 5 and 6: Warden's self-test (R34, R345, R357, R490, R498, R512) -/

/-- The consumers that a boot opens: Warden, Anvil, the host targets and the PHYs; engines join as they are released. -/
def openRings (s : State) : State :=
  each (List.finRange 16) (fun q s =>
    each ((ringConsumers q).filter fun m => q = 15 || m = 0 || m = 1 || m = 13)
      (fun m s => putRing q (subscribe m s.ring[q]) s) s) s

/-- A capture of the previous run is recorded for its event, and re-armed (R490). -/
def priorCapture (s : State) : State :=
  if s.fc.feValid then
    let c := s.fc
    let s1 := pushReaction 5 0 0 (le32 c.feAddr ++ [byte c.feMaster.toNat, byte c.feType.toNat, c.feChecker]) c.feTb [] s
    { s1 with fc := { s1.fc with feValid := false } }
  else s

/-- The straps HADDR1 and HADDR0 as sampled. -/
def sampleStraps (straps : BitVec 2) (s : State) : State :=
  { s with host := { s.host with haddr := 0x58 + straps.zeroExtend 7 } }

def passSelfTest (straps : BitVec 2) (s : State) : State :=
  let s1 := onEng 1 (fun e => { e with running := true }) (onEng 0 (fun e => { e with running := true }) s)
  let s2 := priorCapture (openRings { s1 with warden := { s1.warden with alive := true, fedTb := s1.tb } })
  sampleStraps straps { s2 with boot := .anvil, host := { s2.host with released := true } }

/-- The hardware's own Device-stop, recorded in the capture, without an event. -/
def failSelfTest (straps : BitVec 2) (s : State) : State :=
  let s1 := reportUnit 0x0B 7 1 1 0 { s with fc := { s.fc with feValid := false } }
  sampleStraps straps { stopDevice (onEng 1 (fun e => { e with failed := true }) s1) with boot := .failed }

def execWardenSelfTestComplete (pass : Bool) (straps : BitVec 2) (s : State) : Host.Outcome State Fault Refusal :=
  .next (if s.boot = .selfTest then (if pass then passSelfTest straps s else failSelfTest straps s) else s)

/-- 20 ms after the release of a Warden that failed its test. -/
def execHostTargetRelease (s : State) : Host.Outcome State Fault Refusal :=
  .next (if s.boot = .failed then { s with host := { s.host with released := true } } else s)

/-! ### Read passes (R461, R462, R480, R481) -/

/-- Word offsets within the memory, each once. -/
def normWords (l : List Nat) : List Nat := ((l.map fun a => a / 4 * 4).filter fun a => decide (a < 0x8000)).eraseDups

def withMarginal (l : List Nat) (s : State) : State := { s with otp := { s.otp with marginal := l } }

/-- The first marginal word of a region. -/
def firstMarginal (s : State) (r : Nat) : Option Nat :=
  (s.otp.marginal.filter fun a => regionOf a = r).foldl (fun o a => some (match o with | none => a | some b => Nat.min a b)) none

/-- Regions with a marginal word, each with its first. -/
def marginalRegions (s : State) : List (Nat × Nat) :=
  (List.range 6).filterMap fun r => (firstMarginal s r).map fun a => (r, a)

def marginalReport (r a : Nat) (s : State) : State := reportUnit 0x04 0 0 r ((a - regionStart r : Nat) : Int) s
def marginalEvent (ra : Nat × Nat) (s : State) : State :=
  pushEvent 0x0B05 (byte ra.1 :: le 2 ((ra.2 - regionStart ra.1 : Nat) : Int)) s

/-- An identity or attestation-key word is marginal, and the fuse is whole. -/
def mustWithdraw (s : State) : Bool := !withdrawnFuse s && (marginalIn s 0x99C 64 || marginalIn s 0xB00 32)

def withdraw (s : State) : State :=
  let s1 := burnByte 0x7D14 1 s
  { s1 with otp := { s1.otp with withdrawn := true } }

/-- MARG_CNT and the marginal bits of R382. -/
def marginalStatus (s : State) : State :=
  let sm := BitVec.ofNat 14 (bits ((List.range 14).map fun i => slotCheck s (i + 1) = 2))
  { s with otp := { s.otp with margCnt := byte (min 255 s.otp.marginal.length), slotMarg := sm, hallMarg := marginalIn s 0x900 0x400 } }

def slotsValid (s : State) : BitVec 14 := BitVec.ofNat 14 (bits ((List.range 14).map fun i => slotCheck s (i + 1) = 0))

/-- R472: the highest consumed slot has no commit word. -/
def examineBurn (s : State) : State :=
  let n := highestConsumed s
  if n ≠ 0 && otpWord s (slotBase n + 0x7FC) = 0 then
    { s with otp := { s.otp with interrupted := true, slot := Fin.ofNat 15 n, words := nonBlankWords s n } }
  else s

/-- The boot's pass, with VCC in mV: region C was read in step 3. -/
def bootPass (marginal : List Nat) (vcc : Q) (s : State) : State :=
  let c := s.otp.marginal.filter fun a => regionOf a = 1
  let s1 := withMarginal (c ++ (normWords marginal).filter fun a => regionOf a ≠ 1) s
  let s2 := whenS (mustWithdraw s1) withdraw s1
  let s3 := examineBurn (marginalStatus (whenS (decide (3000 ≤ vcc)) provision s2))
  each (marginalRegions s3) (fun ra => marginalReport ra.1 ra.2)
    { s3 with boot := .passed, otp := { s3.otp with validSlots := slotsValid s3, hour := hourOf s3 } }

/-- Armed injections on checker 0x04 spoil a check bit of the pass's first words: corrected single-bit errors (R503). -/
def injectedWord (i : Nat) (s : State) : State :=
  match injected 0x04 s with
  | (true, s1) =>
    report { checker := 0x04, injected := true, cause := BitVec.ofNat 16 (regionOf (4 * i)),
             value := BitVec.ofNat 32 (4 * i - regionStart (regionOf (4 * i))), unitKind := 0, unitIdx := 0 } s1
  | (false, s1) => s1

def injectionCount (checker : Byte) (s : State) : Nat := ((s.fc.inject.find? fun e => e.1 = checker).map (·.2)).getD 0

/-- A background pass: its consequences of R462, its reports and its events. -/
def backgroundPass (marginal : List Nat) (s : State) : State :=
  let s1 := withMarginal (normWords marginal) s
  let gone := mustWithdraw s1
  let s2 := marginalStatus (whenS gone withdraw (reviseC s1))
  let o := { s2.otp with passDue := false, hour := hourOf s2, validSlots := s2.otp.validSlots &&& ~~~s2.otp.slotMarg }
  let s3 := each (List.range (min 8192 (injectionCount 0x04 s2))) injectedWord { s2 with otp := o }
  let s4 := each (marginalRegions s3) (fun ra s => marginalEvent ra (marginalReport ra.1 ra.2 s)) s3
  if gone then pushEvent 0x0B09 [] s4 else s4

/-- A pass that falls due in a burn, or in standby outside a wake window, waits. -/
def passWaits (s : State) : Bool := burnRuns s || (s.dev = .standby && s.stby.window.isNone)

def execOtpReadPass (marginal : List Nat) (vcc : Q) (s : State) : Host.Outcome State Fault Refusal :=
  .next (match s.boot with
    | .anvil => bootPass marginal vcc s
    | .done | .failed =>
      if !passOwed s then s
      else if passWaits s then { s with otp := { s.otp with passDue := true } } else backgroundPass marginal s
    | _ => s)

/-! ### Step 8: layering, loading, the engines (R325, R474) -/

/-- The slot layer from the highest valid slot, and the entries ignored. -/
def slotLayer (s : State) : Params × List (Half × Nat) :=
  let p : Params := { cfgWait := s.par.cfgWait }
  let n := highestValid s
  if n = 0 then (p, [])
  else
    let bs := slotBytes s n
    let (l, k, ign) := layerImage s bs
    ({ p with slot := l, inForce := Fin.ofNat 15 n, ident := imgIdent bs, applied := BitVec.ofNat 16 k,
              ignored := BitVec.ofNat 16 ign.length }, ign)

/-- Engines 2 to 11 loaded and released. -/
def releaseEngine (e : Fin 12) (s : State) : State :=
  joinRings e (onEng e (fun x => { x with running := true, failed := false, retained := false, frames := 0, repSeq := 0 }) s)

def releaseEngines (s : State) : State := each ((List.finRange 12).filter fun e => 2 ≤ e.val) releaseEngine s

/-- A channel's frequency, and the nominal set of R120. -/
def bootChan (c : Fin 16) (s : State) : State :=
  let f := keyFsw s c
  nominalSet c (onChan c (fun h => { h with fsw := f, period := periodOf s f }) s)

/-- Load ports commanded on by their defaults (R272). -/
def bootLoads (s : State) : State :=
  { s with load := vmapIdx s.load fun p l => { l with commanded := l.commanded || (paramAt s 0x700 p.val).toNat.testBit 0 } }

/-! ### Step 9: READY and its events (R513) -/

def bootEvent (s : State) : State :=
  let flags := bits [s.wires.shadowActive, slotsExhausted s, s.clk.crystal]
  pushEvent 0x0005 ([s.aon.cause, byte s.par.inForce.val, byte flags] ++ le16 s.par.ignored) s

/-- Consumed slots that are not valid, with the check that failed, from the highest as Anvil looks for the layer (log 99). -/
def invalidSlots (s : State) : List (Nat × Nat) :=
  ((List.range 14).reverse.filter fun i => slotConsumed s (i + 1) && slotCheck s (i + 1) ≠ 0).map fun i => (i + 1, slotCheck s (i + 1))

/-- Events of the image layered: those of its entries and then its own (log 99). -/
def imageEvents (ign : List (Half × Nat)) (s : State) : State :=
  let n := s.par.inForce.val
  let s1 := each (invalidSlots s) (fun x => pushEvent 0x0B02 [byte x.1, byte x.2]) s
  if n = 0 then s1
  else pushEvent 0x0B01 (byte n :: le16 s.par.applied ++ le16 s.par.ignored) (ignoredEvents n ign s1)

/-- Slots exhausted, told at each boot (R473). -/
def exhaustedEvent (s : State) : State := if slotsExhausted s then pushEvent 0x0B03 [] s else s

/-- Events of the boot's read pass: each conservative bit is told (log 100). -/
def passEvents (s : State) : State :=
  let s2 := each (marginalRegions s) marginalEvent s
  let s3 := each (marginalBits s) (fun x => pushEvent 0x0B06 [byte x.1, byte x.2]) s2
  if s.otp.withdrawn then pushEvent 0x0B09 [] s3 else s3

/-- The mailbox opens. -/
def openMailbox (s : State) : State :=
  setCause 7 { s with boot := .done, otp := { s.otp with window := false }, mbox := { s.mbox with ready := true, restarted := false } }

/-- A battery port begins: its charge state, and its channel under R61 (R179, R200, R207, R516); the equalise interval runs from here
(R197). A reserved SEGS of a non-lowest port is told too (R214). -/
def beginBattery (p : Fin 4) (s : State) : State :=
  if !batEn s p then s
  else if gangLow s p = p then
    let s1 := configEvents p (startCharge p .boot (onBat p (fun x => { x with eqTb := s.tb }) s))
    let c := chanOfBat p
    if chanAllowed s1 c && chem s1 p ≠ 0 && chem s1 p ≠ 7 then beginChan c s1 else s1
  else if reservedSegs s p then pushEvent 0x0509 [byte p.val, Config.eventCode 0x0509 1] s
  else s

def beginUsb (p : Fin 4) (s : State) : State := onUsb p (fun u => { u with tc := unattachedOf s p }) s

/-- The first policy frame after READY starts the battery channels, and the source and USB ports' detection (R516). -/
def beginAll (s : State) : State :=
  let s1 := { s with mbox := { s.mbox with portsDue := false } }
  each (List.finRange 4) beginUsb (each (List.finRange 4) beginBattery s1)

/-- Everything that READY finds loaded, with the Ride's starting target (R61). -/
def loadDefaults (vRide : Q) (par : Params) (s : State) : State :=
  let s1 := queueConfig s { s with par := par }
  let s2 := writeAlert (writeIrq (writeLoads (bootLoads s1)))
  let s3 := assayPower (each (List.finRange 16) bootChan (releaseEngines s2))
  let s4 := each (List.finRange 4) buildSchedule s3
  let s5 := setPresent (max (r10 vRide) (startFloor s4)) s4
  regulate vRide (referenceKey { s5 with dev := .running, ride := { s5.ride with v := vRide, target := finalTarget s5 } })

/-- After a Device-stop in the boot, Anvil opens the mailbox and no more (R498). -/
def readyStopped (par : Params) (ign : List (Half × Nat)) (s : State) : State :=
  exhaustedEvent (imageEvents ign (passEvents (bootEvent (openMailbox (writeAlert (writeIrq (queueConfig s { s with par := par })))))))

def readyRuns (vRide : Q) (par : Params) (ign : List (Half × Nat)) (s : State) : State :=
  let s1 := exhaustedEvent (imageEvents ign (passEvents (bootEvent (openMailbox (loadDefaults vRide par s)))))
  { s1 with mbox := { s1.mbox with portsDue := true } }

def execAnvilReady (vRide : Q) (s : State) : Host.Outcome State Fault Refusal :=
  .next (if s.boot = .passed then
      let (par, ign) := slotLayer s
      if s.dev = .deviceStop then readyStopped par ign s else readyRuns vRide par ign s
    else s)

/-! ### Anvil restarts (R33, R398, R485) -/

/-- Why a patch fails its verification: 0 layout, 1 version, 2 key, 3 signature. -/
def patchFault (s : State) (bs : List Byte) : Nat :=
  if !patchForm (bs.take 4 ++ [0xA1, 2, 1] ++ bs.drop 7) then 0
  else if !patchForm bs then 1
  else if !patchKeyOk s (patchKeyIdx bs) then 2 else 3

/-- The patch accepted or applied is verified again, and applied or dropped; its event follows the restart's. -/
def applyPatch (s : State) : State :=
  if !s.mbox.patchDue && s.mbox.patched.isNone then s
  else
    let bs := patchBytes s
    if patchForm bs && patchSigned s bs then
      pushEvent 0x0B0A (byte (patchKeyIdx bs) :: slice bs 7 2)
        { s with mbox := { s.mbox with patched := some (byteAt bs 7, byteAt bs 8), patchDig := sha256 bs, patchDue := false } }
    else
      pushEvent 0x0B0B [byte (patchFault s bs)]
        { s with mbox := { s.mbox with patched := none, patchDig := [], patchDue := false } }

/-- What Anvil's RAM held starts anew; the patch area and the Q0 slots stay. -/
def freshMailbox (m : Mailbox) : Mailbox :=
  { q0mem := m.q0mem, patch := m.patch, patchLen := m.patchLen, patched := m.patched, patchDig := m.patchDig, patchDue := m.patchDue,
    ready := true, portsDue := m.portsDue }

/-- USB and load counters and the load energies restart at 0 (R281, R554). -/
def freshUsbCnt (u : Usb) : Usb :=
  { u with cAttach := {}, cHrSent := {}, cHrRecv := {}, cSoft := {}, cTxFail := {}, cSwap := {}, cShed := {}, cOv := {} }
def freshLoadCnt (l : Load) : Load :=
  { l with energy := 0, cFast := {}, cLimit := {}, cSoft := {}, cLatch := {}, cShed := {} }

/-- The layers after a restart; a formation that may not change with its channels on stays (R206; log 31). -/
def restartLayers (s : State) : Params × List (Half × Nat) :=
  let (p, ign) := slotLayer s
  if formationBars s { s with par := p } then
    ({ p with slot := putKey 0x047C (param s 0x47C) p.slot }, ign)
  else (p, ign)

/-- Keys whose value may differ; the interrupt enables are not written at a restart (R384). -/
def restartKeys (before after : Params) : List Half :=
  (layerKeys ((imageLayer before) ++ before.host) after.slot).filter fun k => k ≠ 0x20 && k ≠ 0x21

/-- Every attached USB port is recovered by Hard Reset, cause 10 (log 19). -/
def recoverUsb (s : State) : State := each (List.finRange 4) (fun p => hardReset p true 10) s

/-- Under policy 2 a set that a commanded run found lasts until the restart (R120). -/
def nominalAgain (s : State) : State :=
  each ((List.finRange 16).filter fun c => chanLow s c = c && annPolicy s c = 2 && s.chan[c].origin = 2) nominalSet s

def restartAnvil (s : State) : State :=
  let s0 := onEng 0 (fun x => { x with halted := false }) (if s.mbox.restarted then s else anvilDown s)
  let (par, ign) := restartLayers s0
  let s1 := { s0 with otp := { s0.otp with window := false }, mbox := freshMailbox s0.mbox, usb := vmap s0.usb freshUsbCnt, load := vmap s0.load freshLoadCnt }
  let s2 := applyPatch (pushEvent 0x0001 [] (setCause 7 s1))
  let s3 := keysChanged s2 (restartKeys s2.par par) { s2 with par := par }
  recoverUsb (imageEvents ign (nominalAgain s3))

def execAnvilRestart (s : State) : Host.Outcome State Fault Refusal :=
  .next (if s.boot = .done && (s.mbox.restarted || s.mbox.restartDue) then restartAnvil s else s)

end Sys2Proof.Machine
end

