-- ==== Sys2Proof/Machine/CmdSystem.lean ====
section
/-! DEFINITION. The system commands: ECHO, DEVICE_INFO, RESET, SHIP_MODE, COUNTER_CLEAR and SBUS_TRANSFER (R412 to R418,
R367 to R372). -/

namespace Sys2Proof.Machine
open Sys2Proof

/-! ### ECHO, DEVICE_INFO (R412, R413) -/

def rowEcho : CmdRow :=
  { op := 0x0000, reads := true, lenOk := fun c => decide (c.len ≤ 244), run := fun c s => done c.body s }

def deviceFlags (s : State) : Nat :=
  bits [slotsExhausted s, s.wires.shadowActive, s.mbox.patched.isSome, s.par.trial.isSome, s.wires.secure, s.wires.debugLock, attestable s]

def deviceInfo (s : State) : List Byte :=
  le32 devIdWord ++ le32 (revWord s) ++ le64 Config.dieId ++ le64 s.tb ++
  [byte (stateCode s.dev), s.aon.cause, byte s.par.inForce.val, byte (deviceFlags s), byte (recentRestarts s).length, 0, 0, 0]

def rowDeviceInfo : CmdRow :=
  { op := 0x0001, reads := true, lenOk := fun c => c.len = 0, run := fun _ s => done (deviceInfo s) s }

/-! ### RESET, SHIP_MODE (R414, R415): they act 10 ms after the response, as rows of their own -/

def rowReset : CmdRow :=
  { op := 0x0002, reads := false, lenOk := fun c => c.len = 3,
    run := fun c s =>
      if !c.confirmed || 1 < c.u8 2 then refuse stRange s
      else if c.u8 2 = 0 then done [] { s with mbox := { s.mbox with resetDue := true } }
      else done [] { s with mbox := { s.mbox with restartDue := true } } }

def rowShipMode : CmdRow :=
  { op := 0x0003, reads := false, lenOk := fun c => c.len = 3, stateOk := fun s _ => !burnRuns s,
    run := fun c s =>
      if !c.confirmed || 1 < c.u8 2 then refuse stRange s
      else if !reedEn s && c.u8 2 = 0 then refuse 0x0100 s
      else done [] { s with mbox := { s.mbox with shipDue := some (byte (c.u8 2)) } } }

/-! ### COUNTER_CLEAR (R416) -/

/-- Counter numbers of a unit kind (table "Counter numbers"). -/
def counterNumbers (k : Nat) : List Nat :=
  match k with
  | 0 => List.range 4 | 1 => List.range 6 | 2 => List.range 8 | 3 => List.range 6 ++ [8, 9, 10, 11] | 4 => List.range 5
  | 5 => [0] | 9 => List.range 64 | 12 => [0] | 13 => [0, 1] | _ => []

def clearDeviceCnt (n : Nat) (s : State) : State :=
  match n with
  | 0 => { s with ride := { s.ride with ovCnt := {} } }
  | 1 => { s with tap := { s.tap with trips := {} } }
  | 2 => { s with therm := { s.therm with shutCnt := {} } }
  | _ => { s with therm := { s.therm with failCnt := {} } }

def clearSrcCnt (n : Nat) (x : Src) : Src :=
  match n with
  | 0 => { x with cWithdraw := {} } | 1 => { x with cQualFail := {} } | 2 => { x with cUndet := {} }
  | 3 => { x with cOv := {} } | 4 => { x with cScan := {} } | _ => { x with cSwell := {} }

def clearUsbCnt (n : Nat) (u : Usb) : Usb :=
  match n with
  | 0 => { u with cAttach := {} } | 1 => { u with cHrSent := {} } | 2 => { u with cHrRecv := {} } | 3 => { u with cSoft := {} }
  | 4 => { u with cTxFail := {} } | 5 => { u with cSwap := {} } | 6 => { u with cShed := {} } | _ => { u with cOv := {} }

def clearBatCnt (n : Nat) (x : Bat) : Bat :=
  match n with
  | 0 => { x with cTerm := {} } | 1 => { x with cDormant := {} } | 2 => { x with cCut := {} } | 3 => { x with cDisturb := {} }
  | 4 => { x with cFitFail := {} } | 5 => { x with cQualFail := {} } | 8 => { x with cTrips := {} } | 9 => { x with cTap := {} }
  | 10 => { x with cProbe := {} } | _ => { x with bleedHours := .replicate 16 0 }

def clearLoadCnt (n : Nat) (l : Load) : Load :=
  match n with
  | 0 => { l with cFast := {} } | 1 => { l with cLimit := {} } | 2 => { l with cSoft := {} } | 3 => { l with cLatch := {} }
  | _ => { l with cShed := {} }

/-- CNT of a ring, on Q4 to Q7 its consumers' overrun counts, and for Q8 the overflow counter of fault collection. -/
def clearRingCnt (q : Fin 16) (s : State) : State :=
  let s1 := putRing q { s.ring[q] with cnt := {}, overrun := [] } s
  if q = 8 then { s1 with fc := { s1.fc with q8Ovf := {}, q8Seen := 0 } } else s1

def clearHostCnt (i n : Nat) (s : State) : State :=
  let h := s.host
  { s with host := if i = 0 then (if n = 0 then { h with spiErr := {} } else { h with spiProto := {} })
                   else if n = 0 then { h with hbusErr := {} } else { h with hbusProto := {} } }

/-- One counter of a unit at 0; a port of a gang stands for the gang (R408). -/
def clearCounter (k i n : Nat) (s : State) : State :=
  match k with
  | 0 => clearDeviceCnt n s
  | 1 => onSrc (fin8 i) (clearSrcCnt n) s
  | 2 => onUsb (fin4 i) (clearUsbCnt n) s
  | 3 => each (gang s (fin4 i)) (fun p => onBat p (clearBatCnt n)) s
  | 4 => onLoad (fin32 i) (clearLoadCnt n) s
  | 5 => each (chanGang s (fin16 i)) (fun c => onChan c (fun h => { h with hicCnt := {} })) s
  | 9 => onGroup (fin4 i) (fun g => { g with entries := upd g.entries (Fin.ofNat 64 n) fun e => { e with miss := {} } }) s
  | 12 => clearRingCnt (fin16 i) s
  | _ => clearHostCnt i n s

/-- Bits of a mask of counters. -/
def maskBits (m : Nat) : List Nat := (List.range 64).filter m.testBit

def rowCounterClear : CmdRow :=
  { op := 0x0004, reads := false, lenOk := fun c => c.len = 10,
    run := fun c s =>
      let k := c.u8 0; let i := c.u8 1
      let l := maskBits (ofLe (slice c.body 2 8))
      if (counterNumbers k).isEmpty then refuse stRange s
      else match portCheck s k i with
        | some st => refuse st s
        | none => if l.all (counterNumbers k).contains then done [] (each l (clearCounter k i) s) else refuse stRange s }

/-! ### SBUS_TRANSFER (R417, R418, R367 to R372) -/

/-- The factory sets, in 50 ns (table "SBUS factory timing sets"). -/
def sbusSet (speed : Int) : SbusTimes :=
  if speed = 0 then { low := 100, high := 99, hold := 6, setup := 25, startHold := 80, susto := 94, buf := 94 }
  else if speed = 1 then { low := 28, high := 21, hold := 6, setup := 8, startHold := 12, susto := 12, buf := 26 }
  else { low := 11, high := 8, hold := 2, setup := 4, startHold := 6, susto := 6, buf := 10 }

/-- The timing in force: a timing key at 0 takes the set's value (R368). -/
def sbusTimes (s : State) : SbusTimes :=
  let x := sbusSet (param s 0x30)
  let pick (k : Nat) (n : Nat) : Nat := if param s k = 0 then n else (param s k).toNat
  { low := pick 0x31 x.low, high := pick 0x32 x.high, hold := pick 0x33 x.hold, setup := pick 0x34 x.setup,
    startHold := pick 0x35 x.startHold, susto := pick 0x36 x.susto, buf := pick 0x37 x.buf }

/-- t_LOW + t_HIGH + 0.30 µs in force, in 50 ns (R418). -/
def sbusBit (s : State) : Nat := (sbusTimes s).low + (sbusTimes s).high + 6

/-- The low phase that the controller makes, in 50 ns: t_LOW, or t_HD + t_SU where that is later (R369). -/
def sbusLowPhase (t : SbusTimes) : Nat := max t.low (t.hold + t.setup)

/-- The estimate exceeds 7.0 ms: bytes, addresses included, at nine bits (R418). -/
def sbusTooLong (s : State) (wc rc : Nat) : Bool :=
  decide (140000 < 9 * sbusBit s * (wc + rc + (if wc = 0 then 0 else 1) + (if rc = 0 then 0 else 1)))

/-- Result, bytes written and acknowledged, attempts and bytes read, of a transfer whose first attempts were lost. -/
def sbusResult (s : State) (wc rc lost : Nat) (o : SbusEnd) : Nat × Nat × Nat × List Byte :=
  let n := (param s 0x39).toNat
  if n ≤ lost then (3, 0, n, [])
  else match o with
    | .done r => (0, wc, lost + 1, slice r 0 rc)
    | .nackAddress second => (1, if second then wc else 0, lost + 1, [])
    | .nackData k => (2, min k wc, lost + 1, [])
    | .alwaysLost k => (3, min k wc, max 1 lost, [])
    | .clockLow k r => (4, min k wc, lost + 1, r.take rc)
    | .stuck => (5, 0, lost, [])
    | .busy => (6, 0, lost, [])

/-- The bytes that the controller drove: the address with W and the written bytes up to the one not acknowledged, then the address with
R; nothing where it never had the bus to the end. -/
def sbusSent (addr : Byte) (ws : List Byte) (rc : Nat) : SbusEnd → List Byte
  | .done _ => sbusHead addr ws rc ++ (if rc = 0 || ws.isEmpty then [] else [addr <<< 1 ||| 1])
  | .nackAddress second => if second then sbusHead addr ws rc ++ [addr <<< 1 ||| 1] else (sbusHead addr ws rc).take 1
  | .nackData k => (sbusHead addr ws rc).take (k + 2)
  | .clockLow k _ => (sbusHead addr ws rc).take (k + 1)
  | _ => []
where
  sbusHead (addr : Byte) (ws : List Byte) (rc : Nat) : List Byte :=
    if ws.isEmpty && rc ≠ 0 then [addr <<< 1 ||| 1] else (addr <<< 1) :: ws

/-- A recovery is made no sooner than 1 s after one that failed (R372). -/
def mayRecover (s : State) : Bool := match s.sbus.failTb with | none => true | some t => passed s t 1000

/-- A bus still stuck after nine pulses is a Note-class fault; a transfer that ran shows that it is not stuck (R372). Where no
recovery may be made yet, a stuck bus is reported again by the result alone (log 126). -/
def sbusAfter (r : Nat) (s : State) : State :=
  if r = 5 then
    if mayRecover s then reportUnit 0x3D 0 0 0 0 { s with sbus := { s.sbus with stuck := true, failTb := some s.tb } }
    else { s with sbus := { s.sbus with stuck := true } }
  else if r ≤ 2 then { s with sbus := { s.sbus with stuck := false, failTb := none } }
  else s

/-- The timing that a transfer takes at its start, and what it drove. -/
def sbusRan (sent : List Byte) (s : State) : State := { s with sbus := { s.sbus with times := some (sbusTimes s), sent := sent } }

def runSbus (lost : Nat) (o : SbusEnd) (c : Cmd) (s : State) : Reply :=
  let wc := c.u8 1; let rc := c.u8 2
  if 128 ≤ c.u8 0 || 32 < wc || 32 < rc || wc + rc = 0 || c.u8 3 ≠ 0 then refuse stRange s
  else if sbusTooLong s wc rc then refuse 0x0100 s
  else if c.dry then done (List.replicate 4 0) s
  else
    let (res, w, att, bs) := sbusResult s wc rc lost o
    let sent := if res = 3 then [] else sbusSent (byte (c.u8 0)) (slice c.body 4 wc) rc o
    done ([byte res, byte w, byte bs.length, byte att] ++ bs) (sbusAfter res (sbusRan sent s))

def rowSbusTransfer (lost : Nat) (o : SbusEnd) : CmdRow :=
  { op := 0x0005, reads := false, lenOk := fun c => decide (4 ≤ c.len) && c.len = 4 + c.u8 1, run := runSbus lost o }

/-- R371, R372: a recovery frees the bus after so many pulses, or raises the Note-class fault after the ninth; while SCL
itself stays low, or within 1 s of one that failed, no pulse is sent. -/
def sbusRecovery (sclReleased : Bool) (pulses : Option Nat) (s : State) : State :=
  if !sclReleased || !mayRecover s then s
  else match pulses with
    | some n => if n ≤ 9 then { s with sbus := { s.sbus with stuck := false, failTb := none } } else sbusAfter 5 s
    | none => sbusAfter 5 s

/-! ### The rows -/

def execEcho (s : State) : Host.Outcome State Fault Refusal := .next (takeCommand rowEcho s)
def execDeviceInfo (s : State) : Host.Outcome State Fault Refusal := .next (takeCommand rowDeviceInfo s)
def execReset (s : State) : Host.Outcome State Fault Refusal := .next (takeCommand rowReset s)
def execShipMode (s : State) : Host.Outcome State Fault Refusal := .next (takeCommand rowShipMode s)
def execCounterClear (s : State) : Host.Outcome State Fault Refusal := .next (takeCommand rowCounterClear s)
def execSbusTransfer (lost : Nat) (outcome : SbusEnd) (s : State) : Host.Outcome State Fault Refusal :=
  .next (takeCommand (rowSbusTransfer lost outcome) s)
def execSbusClockLowTimeout (sclReleased : Bool) (pulses : Option Nat) (s : State) : Host.Outcome State Fault Refusal :=
  .next (if s.mbox.ready then sbusRecovery sclReleased pulses s else s)

end Sys2Proof.Machine
end

