-- ==== Sys2Proof/Machine/Standby.lean ====
section
/-! DEFINITION. Understory standby: its entry conditions, its exits and its wake windows (R338 to R341, R524 to R527). -/

namespace Sys2Proof.Machine
open Sys2Proof

/-- The standby source engine, by its port, and whether it watches that port (R338). -/
def standbyEngine (s : State) : Option (Fin 8 × Bool) :=
  let up (p : Fin 8) : Bool := !s.eng[srcEngine p].failed
  match (List.finRange 8).find? fun p => up p && srcEn s p && paramAt s 0x300 p.val ≠ 0 with
  | some p => some (p, true)
  | none => ((List.finRange 8).find? up).map fun p => (p, false)

/-! ### The conditions of R524 -/

def usbQuiet (t : TypeC) : Bool := t = .unattSnk || t = .unattSrc || t = .disabled

def portsQuiet (s : State) : Bool :=
  vall s.src (fun x => x.path = .absent) && vall s.usb (fun u => usbQuiet u.tc) &&
  (List.finRange 16).all fun c => decide (12 ≤ c.val) || !switching s c

def rideQuiet (s : State) : Bool := (s.ride.tier = 1 || s.ride.tier = 2) && decide (s.ride.v ≤ s.ride.th.vT)

/-- A port waiting out the 60 s of R193 or the release of R218 does not hold standby off. -/
def batteryQuiet (x : Bat) : Bool := (x.charge ≠ .qualification || x.qualWait || x.qualRetry) && !x.resting

def banksQuiet (s : State) : Bool :=
  vall s.bat batteryQuiet && (List.finRange 16).all fun c => !annRunning s.chan[c].ann.state

def loadsQuiet (s : State) : Bool := vall s.load fun l => l.state ≠ .softStart && l.state ≠ .limiting

/-- No command outstanding (R391), no long-running command, burn or read pass. -/
def commandsQuiet (s : State) : Bool :=
  s.ring[(0 : Fin 16)].entries.isEmpty && s.ring[(1 : Fin 16)].entries.isEmpty && s.ring[(1 : Fin 16)].stalled.isEmpty &&
  s.mbox.long.isEmpty && s.otp.busy.isNone && !passOwed s

def coolNow (s : State) : Bool := decide (s.therm.tj < tWrn s) && s.therm.theta = 1

/-- The standby delay is not 0, which is off, and every condition holds. -/
def standbyReady (s : State) : Bool :=
  s.dev = .running && s.mbox.ready && param s 0x13 ≠ 0 && portsQuiet s && rideQuiet s && banksQuiet s && loadsQuiet s &&
  commandsQuiet s && coolNow s

/-! ### Entry, wake windows and exit -/

/-- Standby delay, ms. -/
def standbyDelay (s : State) : Q := paramQ s 0x13 1000

/-- The conditions have held up to the end of this frame, or have not (R524). -/
def trackStandby (s : State) : State :=
  { s with stby := { s.stby with since := if standbyReady s then some (s.stby.since.getD s.tb) else none } }

/-- Every running engine but Anvil and the standby source engine is retained, Warden among them. -/
def retainOthers (s : State) : State :=
  let keep (e : Fin 12) : Bool := e = 0 || (match s.stby.engine with | some p => srcEngine p = e | none => false)
  each ((List.finRange 12).filter fun e => s.eng[e].running && !keep e) retainEngine s

def enterStandby (p : Fin 8) (watch : Bool) (s : State) : State :=
  let s1 := retainOthers { s with dev := .standby, clk := { s.clk with pll := false },
                                  stby := { engine := some p, watch := watch, winTb := s.tb, anvilTb := s.tb, srcTb := s.tb } }
  pushEvent 0x0007 [] (setCause 12 (assayPower s1))

/-- Standby begins if there is an engine for it. -/
def tryStandby (s : State) : State :=
  match standbyEngine s with
  | some (p, watch) => enterStandby p watch s
  | none => s

/-- The conditions have held for the delay (R524). -/
def standbyDue (s : State) : Bool :=
  standbyReady s && (match s.stby.since with | some t => passed s t (standbyDelay s) | none => false)

def execStandbyEntry (s : State) : Host.Outcome State Fault Refusal := .next (whenS (standbyDue s) tryStandby s)

/-- The engines resume, the groups' own modes return at the next frame, cause STANDBY and the standby-left event (R525). -/
def leaveStandby (cause : Byte) (s : State) : State :=
  let s1 := resumeEngines { s with dev := .running, clk := { s.clk with pll := true }, stby := {} }
  pushEvent 0x0008 [cause] (setCause 12 (assayPower { s1 with warden := { s1.warden with fedTb := s1.tb } }))

def standbyCauseCode : StandbyCause → Nat
  | .source => 1 | .usb => 2 | .floorOrTaproot => 3 | .fault => 4 | .command => 5 | .watchdog => 6

/-- R525: a cause that has arisen ends standby. -/
def execStandbyExit (cause : StandbyCause) (s : State) : Host.Outcome State Fault Refusal :=
  let c := byte (standbyCauseCode cause)
  .next (whenS (s.dev = .standby && s.stby.exitDue = some c) (leaveStandby c) s)

/-- The standby wake interval since the last window is over; standby that is being left opens none (R339, R343). -/
def windowDue (s : State) : Bool := s.stby.exitDue.isNone && passed s s.stby.winTb (paramQ s 0x12 1)

def execWakeWindowOpen (s : State) : Host.Outcome State Fault Refusal := .next (whenS (windowDue s) openWindow s)

/-- What Warden has not brought back in the window: Anvil or the standby source engine (R525 cause 6). -/
def unresolved (s : State) : Bool :=
  s.mbox.restarted || (match s.stby.engine with | some p => s.eng[srcEngine p].failed | none => false)

/-- R339: standby resumes at the end of the eighth frame, with the standby source engine of R338. -/
def endWindow (s : State) : State :=
  let s1 := if unresolved s then wantRunning 6 s else s
  let e := standbyEngine s
  retainOthers { s1 with stby := { s1.stby with window := none, engine := e.map (·.1), watch := e.elim false (·.2) },
                         clk := { s1.clk with pll := false } }

def windowOver (s : State) : Bool := s.dev = .standby && s.stby.window = some 0

def execWakeWindowEnd (s : State) : Host.Outcome State Fault Refusal := .next (whenS (windowOver s) endWindow s)

/-- What is due at a frame start: a window that is over ends, a cause that has arisen ends standby, an entry or a window whose time
has passed comes (R339, R524, R525; log 13). -/
def standbyEdge (s : State) : State :=
  let s1 := whenS (windowOver s) endWindow s
  match s1.dev, s1.stby.exitDue with
  | .standby, some c => leaveStandby c s1
  | .standby, none => whenS (deepStandby s1 && elapsed s1 s1.stby.winTb (paramQ s1 0x12 1)) openWindow s1
  | _, _ => whenS (standbyDue s1 && (s1.stby.since.elim false fun t => elapsed s1 t (standbyDelay s1))) tryStandby s1

end Sys2Proof.Machine
end

