-- ==== Sys2Proof/Machine/Frames.lean ====
section
/-! DEFINITION. The frames: the engines' control frame, Anvil's policy frame and Warden's frame (R30, R317, R338). -/

namespace Sys2Proof.Machine
open Sys2Proof

/-! ### Rings emptied by a consumer -/

def popMany (q : Fin 16) (m : BitVec 4) : Nat → State → State
  | 0, s => s
  | n + 1, s => popMany q m n (popRing q m true s)

/-- A consumer pops up to the P it finds. -/
def drainRing (m : BitVec 4) (q : Fin 16) (s : State) : State :=
  match indexOf s.ring[q] m with
  | some i => popMany q m (lagOf s.ring[q] i) s
  | none => s

/-- The Assay rings a master consumes. -/
def assayRings (m : BitVec 4) : List (Fin 16) := ([4, 5, 6, 7] : List (Fin 16)).filter fun q => (ringConsumers q).contains m

def drainAssay (m : BitVec 4) (s : State) : State := each (assayRings m) (drainRing m) s

/-! ### The start of a control frame (R30, R307, R333, R334) -/

/-- The next multiple of the spacing that has not yet started a frame. -/
def nextFrame (s : State) : TB :=
  let k := frameStep s
  let m := (s.tb.toNat + (k - 1)) / k * k
  BitVec.ofNat 64 (if s.lastFrame = some (BitVec.ofNat 64 m) then m + k else m)

/-- What takes effect at a frame start: the reference, the spread, the groups' modes; means of the frame that ended. -/
def startFrame (s : State) : State :=
  let t := nextFrame s
  { s with
    tb := t, lastFrame := some t,
    clk := { s.clk with crystal := s.clk.crystal && !s.clk.switchDue, switchDue := false,
                        spread := if deepStandby s then 0 else keySpread s },
    group := vmap s.group fun g => { g with lowPower := g.lowPend.getD g.lowPower, lowPend := none },
    ring := vmap s.ring fun r => { r with overRep := [] },
    ride := { s.ride with frameMin := s.ride.vMin.getD s.ride.v, vMin := none, meas := s.ride.meas.close },
    vcc := s.vcc.close, vdrv := s.vdrv.close, sapling := s.sapling.close,
    phase := vmap s.phase fun p => { p with meas := p.meas.close } }

/-- The engines of 2 to 11 that a list of bits names do not complete this frame: while it runs they stand. -/
def hang (hung : BitVec 12) (s : State) : State :=
  { s with eng := vmapIdx s.eng fun e x => { x with halted := x.halted || (decide (2 ≤ e.val) && hung.getLsbD e.val) } }

/-- The frame over, an engine stands only where it did before. -/
def unhang (before s : State) : State :=
  { s with eng := vmapIdx s.eng fun e x => { x with halted := x.halted && before.eng[e].halted } }

/-! ### Bank checks (R141) -/

/-- Port-side currents of the one healthy phase of a ring: what u_out calls for, and what the phase sense implies. -/
def bankCurrents (s : State) (p : Fin 4) (k : Fin 28) : Q × Q :=
  let h := s.chan[chanOfBat p]
  let v := s.bat[p].vBank.mean
  let r := s.ride.meas.mean
  let t := periodTime h.period
  (h.uOut * convFactor h.mode v r t false / convFactor h.mode v r t true, s.phase[k].meas.mean / convFactor h.mode v r t true)

/-- The frame is evaluated: in the whole of it the channel switched with no stop, rest hold or engagement (`fBroken`). -/
def bankEvaluated (s : State) (p : Fin 4) : Bool :=
  let h := s.chan[chanOfBat p]
  decide (0 < h.fPeriods) && !h.fPeak && !h.fBroken && switching s (chanOfBat p)

/-- One check's count after a frame. -/
def bankPhase (call sense bank peak : Q) (x : Phase) : Phase :=
  let low (i : Q) : Bool := decide (i.abs < call.abs / 10)
  let dev := decide (peak / 10 < call.abs) && low bank && low sense
  let off := decide (max (15 / 100 * bank.abs) (peak / 20) < (sense - bank).abs)
  { x with delivery := checkCount true dev x.delivery, agreement := checkCount (decide (peak / 20 < call.abs)) off x.agreement }

/-- 16 deviant frames in succession fail the phase, 4 during its probation. -/
def bankVerdict (k : Fin 28) (s : State) : State :=
  let x := s.phase[k]
  if causeDue x 4 then failPhase k 4 s else if causeDue x 5 then failPhase k 5 s else s

def bankChecks (p : Fin 4) (s : State) : State :=
  match healthyPhases s (chanOfBat p) with
  | [k] =>
    if bankEvaluated s p then
      let (call, sense) := bankCurrents s p k
      bankVerdict k (onPhase k (bankPhase call sense s.bat[p].iBank.mean (peakDir s (chanOfBat p) call)) s)
    else s
  | _ => s

/-! ### One engine's frame (R30) -/

/-- The means of a port that no engine runs; the snapshot shows them still. -/
def idleSrc (x : Src) : Src := { x with v := x.v.close, i := x.i.close, pw := x.pw.close }
def idleUsb (u : Usb) : Usb := { u with vbus := u.vbus.close, i := u.i.close, pw := u.pw.close }

def srcPort (p : Fin 8) (s : State) : State := if srcActive s p then srcFrame p s else onSrc p idleSrc s
def usbPort (p : Fin 4) (s : State) : State :=
  let s1 := if usbEn s p && s.clk.vcc then onUsb p dischargeIdle s else s
  if usbActive s1 p then usbFrame p s1 else onUsb p idleUsb s1

/-- A battery port's frame: its means and its shunt's counters, q µAs in this frame, whoever runs it; then its engine's part. -/
def batPort (bank : List Q) (p : Fin 4) (s : State) : State :=
  let s1 := onBat p (fun x => meterBat s p (bank.getD p.val 0) (closeBat x)) s
  if batActive s1 p then bankChecks p (batFrame p s1) else s1

/-- Every port's part of the frame, in the order of the engines. -/
def portFrames (bank : List Q) (s : State) : State :=
  each (List.finRange 4) (batPort bank) (each (List.finRange 4) usbPort (each (List.finRange 8) srcPort s))

/-- Step 3 of R30 on a channel: its hardware's values written anew, its frequency among them; coefficients and references are the ones
committed and set, which a rewrite does not change. -/
def rewriteFrame (c : Fin 16) (s : State) : State := rewriteChan c (writeFsw c (keyFsw s c) s)

/-- The lowest channels of running engines. -/
def liveChans (s : State) : List (Fin 16) := (List.finRange 16).filter fun c => chanLow s c = c && engineUp s (engineOf s c)

/-- Channels of a running engine watch their Annealing runs. -/
def annFrames (s : State) : State :=
  each (liveChans s) annFrame s

/-- Taproot engaged on a channel's port. -/
def tapOn (s : State) (c : Fin 16) : Bool := tapEngaged s && (tapPort s).map chanOfBat = some c

/-- The frame's counts on every channel start anew; what stands at its start breaks the new frame too (R141). -/
def clearFrameCounts (s : State) : State :=
  { s with
    chan := vmapIdx s.chan fun c h =>
      { h with fPeriods := 0, fBound := 0, fPeak := false, fBroken := !unstopped h || h.restHold || tapOn s c },
    phase := vmap s.phase fun p => { p with dead1 := p.dead1.close, dead2 := p.dead2.close } }

def reportRing (e : Fin 12) : Fin 16 := if e.val < 10 then 11 else 13

/-- What rules put into an engine's report: the duty-clamp flags of its channels (R75), their scaled clamps (R142) and the dead times of
their phases (R92). -/
def reportOfEngine (s : State) (e : Fin 12) : List Byte :=
  let cs := (List.finRange 16).filter fun c => engineOf s c = e
  pad 128 (Config.reportLayout s.free (cs.map fun c => s.chan[c].dutyClamp)
    ((cs.flatMap fun c => [(limitsNow s c).1, (limitsNow s c).2]) ++
     (cs.flatMap phasesOf).flatMap fun k => [s.phase[k].dead1.mean, s.phase[k].dead2.mean]))

/-- An engine completes its frame with a report, whose 128 bytes the spec does not lay out (log 1). -/
def engineReport (e : Fin 12) (s : State) : State :=
  pushRing (reportRing e) (reportOfEngine s e)
    (onEng e (fun x => { x with frames := x.frames + 1, repSeq := x.repSeq + 1 }) { s with free := s.free + 1 })

/-- Engines of 2 to 11 that run this frame. -/
def frameEngines (s : State) : List (Fin 12) := (List.finRange 12).filter fun e => decide (2 ≤ e.val) && engineUp s e

/-- Steps 1 and 2 of an engine: Assay records, and what Anvil has passed to it (R19, R30). -/
def engineTakes (e : Fin 12) (s : State) : State := takeDue e (drainRing (engMaster e) (passRing e) (drainAssay (engMaster e) s))

/-- Warden counts the frames that an engine completes or misses; a missed one starts the 64 of R500 again (R31, R339). -/
def countFrames (done : List (Fin 12)) (s : State) : State :=
  if wardenRuns s then
    { s with eng := vmapIdx s.eng fun e x =>
        if decide (e.val < 2) || !x.running || x.failed || x.retained then x
        else if done.contains e then { x with missed := 0 }
        else { x with missed := x.missed + 1, frames := 0 } }
  else s

/-- The standby source engine's write to the standby watchdog (R340). -/
def feedStandby (done : List (Fin 12)) (s : State) : State :=
  match s.stby.engine with
  | some p => if done.contains (srcEngine p) then { s with stby := { s.stby with srcTb := s.tb } } else s
  | none => s

/-- One frame of a wake window less (R339). -/
def windowFrame (s : State) : State := { s with stby := { s.stby with window := s.stby.window.map (· - 1) } }

/-- One control frame. `hung` names the engines that miss it, `bank` what each bank shunt integrated in it, µAs. -/
def controlFrame (hung : BitVec 12) (bank : List Q) (s : State) : State :=
  let s1 := selectPort (startFrame (standbyEdge s))
  let s2 := hang hung s1
  let done := frameEngines s2
  let s3 := portFrames bank (each done engineTakes s2)
  let s4 := clearFrameCounts (annFrames (each (liveChans s3) rewriteFrame s3))
  let s5 := countFrames done (unhang s1 (each done engineReport s4))
  trackStandby (windowFrame (feedStandby done s5))

def execControlFrame (hung : BitVec 12) (bank : List Q) (s : State) : Host.Outcome State Fault Refusal :=
  .next (if s.tbRuns then controlFrame hung bank s else s)

/-! ### Anvil's policy frame: Warden's reactions (R495, R496, R502) -/

/-- A fault entry's event. -/
def reactionEvent (bs : List Byte) (s : State) : State :=
  let tb := reportTb (bs.drop 8)
  let id := slice bs 2 2
  let cls := byteAt bs 1
  let rep := slice bs 4 12
  match (byteAt bs 0).toNat with
  | 0 => pushEventAt tb 0x0A01 true
      (id ++ [cls, byteAt rep 0, byteAt rep 2, byteAt rep 3, byte (b2n ((byteAt rep 1).getLsbD 7))] ++ slice rep 8 2) s
  | 2 =>
    let f := s.warden.standing.find? fun f => le16 f.id = id
    let old := match f with | some f => clsCode f.oldCls | none => cls
    let ro := match f with | some f => f.resetOnly | none => false
    pushEventAt tb 0x0A02 true (id ++ [old, cls, byte (b2n ro)]) s
  | 3 => pushEventAt tb 0x0A03 false (id ++ [byteAt bs 24]) s
  | 4 => pushEventAt tb 0x0A04 true [byteAt rep 0, byteAt rep 2, byteAt rep 3] s
  | 5 => pushEventAt tb 0x0A05 false (slice rep 0 7 ++ le64 tb) s
  | 6 => pushEventAt tb 0x0A06 false (le16 s.warden.unrecorded) s
  | _ => s

/-- One entry of Q9. -/
def takeReaction (s : State) : State :=
  match takeEntry 9 0 s with
  | (some bs, s1) => reactionEvent bs s1
  | (none, s1) => s1

def takeReactions : Nat → State → State
  | 0, s => s
  | n + 1, s => takeReactions n (takeReaction s)

def q9Waiting (s : State) : Nat := s.ring[(9 : Fin 16)].entries.length + s.ring[(9 : Fin 16)].stalled.length

/-- R502: drops on Q8 since the last event. -/
def overflowEvent (s : State) : State :=
  if s.fc.q8Ovf.n = s.fc.q8Seen then s
  else pushEvent 0x0A07 (le16 s.fc.q8Ovf.n ++ le64 s.fc.pendEv) { s with fc := { s.fc with q8Seen := s.fc.q8Ovf.n, pendEv := 0 } }

/-- R521 rule 2. -/
def reedEvent (s : State) : State :=
  if s.aon.reed2sDue then pushEvent 0x0006 [] { s with aon := { s.aon with reed2sDue := false } } else s

/-- R222: a clearable stop of an option port is cleared by Anvil. -/
def autoClear (p : Fin 4) (s : State) : State :=
  if s.bat[p].ovp = .clearable && cellOption s p 1 && gangLow s p = p then closeFor 0x20 3 (byte p.val) 1 (releaseOvp p 1 s) else s

/-! ### Loads and the Ride's target (R41, R61, R282) -/

def loadPolicy (l : Load) : Load :=
  let v := l.v.close
  let i := l.i.close
  let w := l.pw.close
  { l with v := v, i := i, pw := w, vPol := v.mean, iPol := i.mean, pPol := w.mean }

/-- Length of a policy frame, ms. -/
def policyTime (s : State) : Q := if s.dev = .standby then 8192 / 1000 else 1024 / 1000

/-- The present target after a policy frame at the target slew rate of key 0x0201, in 10 mV/ms. -/
def slewTarget (s : State) : Q :=
  let d := paramQ s 0x201 10 * policyTime s
  if s.ride.present < s.ride.target then min s.ride.target (s.ride.present + d) else max s.ride.target (s.ride.present - d)

/-- The thresholds follow the present target, in Device-stop too; arrived the first time, it releases the load ports. -/
def moveTarget (s : State) : State :=
  if slewTarget s = s.ride.target && !s.ride.released then targetReached s
  else if s.ride.present = s.ride.target then s
  else setPresent (slewTarget s) s

/-! ### The policy frame -/

def wardenWords (s : State) : State :=
  reedEvent (overflowEvent (takeReactions (q9Waiting s) s))

def policyPorts (s : State) : State := if deviceRuns s then each (List.finRange 4) usbPolicy s else s

def policyFrame (hostReading : Bool) (s : State) : State :=
  let s0 := if s.mbox.portsDue && deviceRuns s then beginAll s else s
  let s1 := each (List.finRange 4) autoClear (wardenWords { s0 with stby := { s0.stby with anvilTb := s0.tb } })
  let s2 := writeLoads (writeEnables (sendConfig s1.par.cfgWait.length s1))
  let s3 := each ([5, 11, 13] : List (Fin 16)) (drainRing 0) s2
  let s4 := moveTarget (policyPorts { s3 with load := vmap s3.load loadPolicy })
  refreshSnap hostReading (each (List.finRange 4) rebuildSchedule s4)

def execPolicyFrame (hostReading : Bool) (s : State) : Host.Outcome State Fault Refusal :=
  .next (if s.mbox.ready && !s.eng[(0 : Fin 12)].halted && (deviceRuns s || s.dev = .deviceStop) then policyFrame hostReading s else s)

/-! ### Warden's frame (R317, R491, R503) -/

/-- A pending bit becomes a fault of its checker against the device. -/
def pendingFault (c : Nat) (s : State) : State :=
  let r : Report := { checker := byte c, unitKind := 0, unitIdx := 0, cause := 0xFFFF, value := 0 }
  let s0 := { s with fc := { s.fc with pend := putBit s.fc.pend c false } }
  match classOf s0 r with
  | none => s0
  | some cls =>
    let s1 := recordFault r s.tb cls false (if cls = .deviceStop then stopDevice s0 else s0)
    if cls = .deviceStop then tellDeviceStop r s.tb s1 else s1

def pendingFaults (s : State) : State := each ((List.range 64).filter fun c => s.fc.pend.getLsbD c) pendingFault s

/-- An injection not yet used is discarded when the debug-lock wire is found set. -/
def dropInjection (s : State) : State := if s.wires.debugLock then { s with fc := { s.fc with inject := [] } } else s

/-- What Warden finds of an engine in its frame: eight frames missed, a restart whose second is over, 64 frames completed (R31, R500). -/
def watchEngine (e : Fin 12) (s : State) : State :=
  let x := s.eng[e]
  if e.val < 2 then s
  else if decide (8 ≤ x.missed) && !x.failed then finding 0x09 7 e.val 0 x.missed s
  else if s.warden.restartDue.contains e && elapsed s (failedAt s e) 1000 then restartEngine e s
  else if x.verify && decide (64 ≤ x.frames) && engineUp s e then engineVerified e s
  else s

/-- A phase whose probation is over has its fault closed (R143). -/
def watchPhase (k : Fin 28) (s : State) : State :=
  if s.phase[k].healthy && s.phase[k].probation = 1 then
    closeFor 0x10 6 (byte k.val) 2 (onPhase k (fun p => { p with probation := 0 }) s)
  else s

/-- Warden's frame: its watchdog served, the faults that are pending, θ, its own records, and what it watches over. -/
def wardenFrame (s : State) : State :=
  let s1 := drainAssay 1 (dropInjection (writeTheta (pendingFaults { s with warden := { s.warden with fedTb := s.tb } })))
  each (List.finRange 4) holdFrame (each (List.finRange 28) watchPhase (each (List.finRange 12) watchEngine s1))

def execWardenFrame (s : State) : Host.Outcome State Fault Refusal := .next (if wardenRuns s then wardenFrame s else s)

end Sys2Proof.Machine
end

