-- ==== Sys2Proof/Machine/Rings.lean ====
section
/-! DEFINITION. The ring hardware: pushes, pops, consumer indices and doorbells as their masters make them (R23 to R25,
R327 to R331, R377, R378). What a consumer then does with an entry is that consumer's own row. -/

namespace Sys2Proof.Machine
open Sys2Proof

/-! ### Host targets as masters (R26, R28, R29) -/

def busMaster (b : HostBus) : BitVec 4 := match b with | .spi => 13 | .hbus => 14

/-- A host access to a reserved or refused host address (R28). -/
def hostError (b : HostBus) (acc : Access) (a : Nat) (s : State) : State := hostErrorAt b acc (BitVec.ofNat 32 (0x50000000 + a)) s

/-! ### Q0: slots and doorbell (R377, R379) -/

/-- Place of a byte of the n-th slot from PIDX. -/
def q0Place (s : State) (slot b : Nat) : Nat := 256 * ((s.ring[(0 : Fin 16)].p.toNat + slot) % 16) + b

/-- A refused doorbell: PIDX stays, REFUSED is set, the refusal counter advances (R329, R377). -/
def refuseDoorbell (s : State) : State := putRing 0 { s.ring[(0 : Fin 16)] with cnt := s.ring[(0 : Fin 16)].cnt.bump, refused := true } s

/-- One written slot pushed. -/
def pushSlot (b : HostBus) (s : State) : State :=
  let bs := memReadN s.mbox.q0mem (q0Place s 0 0) 256
  putRing 0 (place 0 bs s.ring[(0 : Fin 16)]) { s with mbox := { s.mbox with q0By := s.mbox.q0By ++ [busMaster b] } }

/-- A committed COUNT (R377). The command outstanding from now on interrupts the conditions of standby's delay (R391, R524). -/
def doorbell (b : HostBus) (n : Nat) (s : State) : State :=
  if n = 0 then s
  else if !s.mbox.ready || 4 < n || credit 0 s.ring[(0 : Fin 16)] < n then refuseDoorbell s
  else each (List.range n) (fun _ => pushSlot b) { s with stby := { s.stby with since := none } }

/-! ### Consumer indices (R330, R378) -/

/-- Indices checked that still lie before P. -/
def pruneChecked (r : Ring) : Ring :=
  { r with checked := r.checked.filter fun i => decide (lagOf r i ≤ r.entries.length) && decide (lagOf r i ≠ 0) }

/-- A committed CIDX of a host ring: it pops the entries it passes, or is refused. -/
def writeCidx (b : HostBus) (q : Fin 16) (i : Half) (s : State) : State :=
  match indexOf s.ring[q] 13 with
  | none => s
  | some c =>
    if lagOf s.ring[q] c < (i - c).toNat then hostError b .pop (0x100 + 0x10 * q.val) s
    else unstall q (putRing q (pruneChecked (moveIndex 13 i s.ring[q])) s)

/-- An internal consumer's index write. -/
def writeIndex (q : Fin 16) (m : BitVec 4) (i : Half) (s : State) : State :=
  let key := consumerKey q m
  match indexOf s.ring[q] key with
  | none => s
  | some c =>
    let d := (i - c).toNat
    if lagOf s.ring[q] c < d then masterError (consumerMaster q m) .pop (entryAddr q i) s
    else
      let s1 := if q = 0 then { s with mbox := { s.mbox with q0By := s.mbox.q0By.drop d } } else s
      cmdFree s (unstall q (putRing q (moveIndex key i s1.ring[q]) s1))

/-! ### Pushes -/

/-- A record dropped on Q2 or Q3 is remembered for the events-lost event or the next record (R329, R405). -/
def lostRecord (q : Fin 16) (bs : List Byte) (s : State) : State :=
  let m := s.mbox
  let seq := BitVec.ofNat 32 (ofLe (slice bs 0 4))
  if q = 2 then
    { s with mbox := { m with evFirst := if m.evLost = 0 then seq else m.evFirst, evLost := if m.evLost = 0xFFFF then 0xFFFF else m.evLost + 1 } }
  else { s with mbox := { m with tlmLost := if m.tlmLost = 0xFFFF then 0xFFFF else m.tlmLost + 1 } }

/-- The host's own slot written and pushed. -/
def pushHost (m : BitVec 4) (bs : List Byte) (s : State) : State :=
  let s1 := if credit 0 s.ring[(0 : Fin 16)] = 0 then s
            else { s with mbox := { s.mbox with q0mem := memWriteN s.mbox.q0mem (q0Place s 0 0) (pad 256 bs) } }
  doorbell (if m = 14 then .hbus else .spi) 1 s1

/-- A push by its producer, under the ring's own policy. -/
def pushBy (q : Fin 16) (m : BitVec 4) (bs : List Byte) (s : State) : State :=
  if q = 0 then pushHost m bs s
  else if q = 2 || q = 3 then
    let s1 := if q = 2 then flushLost s else s
    if recordEntries q bs ≤ credit q s1.ring[q] then pushRing q bs s1 else lostRecord q bs (pushRing q bs s1)
  else if q = 8 then
    if 1 ≤ credit 8 s.ring[(8 : Fin 16)] then pushRing 8 bs s else dropReport (reportOf bs) s
  else if q = 14 then pushQ14 (fin4 (byteAt bs 0).toNat) bs s
  else pushRing q bs s

/-- R23, R27: another master's push is a bus error. -/
def execRingPush (ring : Fin 16) (master : BitVec 4) (entry : List Byte) (s : State) : Host.Outcome State Fault Refusal :=
  .next (if !s.clk.vcc then s
    else if isProducer ring master then pushBy ring master entry s
    else masterError master .push (entryAddr ring s.ring[ring].p) s)

/-- A pop of Q0 that finds a bad ring CRC is answered with BAD_CRC (R331, R394). -/
def popQ0 (crcOk : Bool) (s : State) : State :=
  match headEntry 0 0 s, indexOf s.ring[(0 : Fin 16)] 0 with
  | some e, some i =>
    let m := s.mbox.q0By.headD 13
    let s1 := popRing 0 0 crcOk { s with mbox := { s.mbox with q0By := s.mbox.q0By.drop 1 } }
    if crcOk && e.crcOk then s1 else respond (cmdOf e.bytes i) 0x0010 [] (reportMailbox m i 0 false s1)
  | _, _ => s

/-- R327, R331; a pop by a master that is no consumer is a bus error. -/
def execRingPop (ring : Fin 16) (consumer : BitVec 4) (crcOk : Bool) (s : State) : Host.Outcome State Fault Refusal :=
  .next (if !s.clk.vcc then s
    else if !isConsumer ring consumer then masterError (consumerMaster ring consumer) .pop (entryAddr ring (cEff s.ring[ring])) s
    else if ring = 0 then popQ0 crcOk s
    else popRing ring consumer crcOk s)

/-- R330. -/
def execConsumerIndexWrite (ring : Fin 16) (consumer : BitVec 4) (index : Half) (s : State) : Host.Outcome State Fault Refusal :=
  .next (if !s.clk.vcc then s
    else if !isConsumer ring consumer then masterError (consumerMaster ring consumer) .pop (entryAddr ring index) s
    else if ring = 1 || ring = 2 || ring = 3 then writeCidx (if consumer = 14 then .hbus else .spi) ring index s
    else writeIndex ring consumer index s)

def execStalledPush (ring : Fin 16) (s : State) : Host.Outcome State Fault Refusal := .next (unstall ring s)

end Sys2Proof.Machine
end

