-- ==== Sys2Proof/Machine/Window.lean ====
section
/-! DEFINITION. The direct register window: which addresses are defined, what a word reads, and what a committed write of it
does (chapter 15, R347, R374 to R384). -/

namespace Sys2Proof.Machine
open Sys2Proof

/-- A defined host address (table "Window ranges"). -/
def definedAddr (a : Nat) : Bool :=
  decide (a < 0x30) || (decide (0x100 ≤ a) && decide (a < 0x200)) || (decide (0x200 ≤ a) && decide (a < 0x22C)) ||
  (decide (0x300 ≤ a) && decide (a < 0x338)) || (decide (0x340 ≤ a) && decide (a < 0x350)) ||
  (decide (0x400 ≤ a) && decide (a < 0x418)) || (decide (0x1000 ≤ a) && decide (a < 0x2500))

/-! ### Ring blocks and windows (R376, R379) -/

/-- CNT of a block: on Q4 to Q7 the highest overrun count of a consumer. -/
def ringCnt (q : Fin 16) (r : Ring) : Cnt :=
  if 4 ≤ q.val && q.val < 8 then (r.overrun.map (·.2)).foldl (fun a b => if a.n < b.n then b else a) {} else r.cnt

def ringAvail (q : Fin 16) (r : Ring) : Nat := if 1 ≤ q.val && q.val ≤ 3 then r.entries.length else credit q r

/-- The word at an offset of a ring's control block. -/
def ringWord (s : State) (q : Fin 16) (o : Nat) : Word :=
  let r := s.ring[q]
  if o = 0 then r.p.zeroExtend 32 ||| ((cEff r).zeroExtend 32 <<< 16)
  else if o = 4 then BitVec.ofNat 32 (ringAvail q r + 0x10000 * (entrySize q / 16) + 0x1000000 * capLog2 q)
  else if o = 8 then r.crcIdx.zeroExtend 32 <<< 16
  else (ringCnt q r).n.zeroExtend 32 ||| (bitWord [r.crcErr, r.refused, r.winErr, (ringCnt q r).sat] <<< 16)

/-- A byte of a ring's window: beyond the credit of Q0, and at or beyond PIDX of the others, it reads 0. -/
def winByte (s : State) (q : Fin 16) (o : Nat) : Byte :=
  let slot := o / entrySize q
  let b := o % entrySize q
  if q = 0 then (if slot < credit 0 s.ring[(0 : Fin 16)] then memRead s.mbox.q0mem (q0Place s slot b) else 0)
  else match s.ring[q].entries[slot]? with
    | some e => byteAt e.bytes b
    | none => 0

def winWord (s : State) (q : Fin 16) (o : Nat) : Word := BitVec.ofNat 32 (ofLe ((List.range 4).map fun i => winByte s q (o + i)))

/-- The host's first read of an entry checks its ring CRC (R378, R503). -/
def touchEntry (b : HostBus) (q : Fin 16) (o : Nat) (s : State) : State :=
  let slot := o / entrySize q
  let i := cEff s.ring[q] + BitVec.ofNat 16 slot
  match s.ring[q].entries[slot]? with
  | none => s
  | some e =>
    if s.ring[q].checked.contains i then s
    else
      let (inj, s1) := injected 0x03 s
      let s2 := putRing q { s1.ring[q] with checked := i :: s1.ring[q].checked } s1
      if e.crcOk && !inj then s2 else crcMismatch q (busMaster b) i inj s2

/-! ### Reading (R337, R347, R375 to R383) -/

def tbHi (s : State) (b : HostBus) : Word :=
  let l := match b with | .spi => s.host.tbHiSpi | .hbus => s.host.tbHiHbus
  l.getD (BitVec.ofNat 32 (s.tb.toNat / 2 ^ 32))

def feHi (s : State) (b : HostBus) : Word :=
  let l := match b with | .spi => s.host.feHiSpi | .hbus => s.host.feHiHbus
  l.getD (BitVec.ofNat 32 (s.fc.feTb.toNat / 2 ^ 32))

def low32 (t : TB) : Word := BitVec.ofNat 32 t.toNat
def high32 (t : TB) : Word := BitVec.ofNat 32 (t.toNat / 2 ^ 32)

def configWord (s : State) : Word :=
  BitVec.ofNat 32 s.par.inForce.val ||| (bitWord [slotsExhausted s, s.wires.shadowActive, s.wires.secure, s.wires.debugLock] <<< 8)

def captureWord (s : State) : Word :=
  BitVec.ofNat 32 (s.fc.feMaster.toNat + 16 * s.fc.feType.toNat + 256 * s.fc.feChecker.toNat) ||| (bitWord [s.fc.feValid] <<< 31)

def burnWordReg (s : State) : Word :=
  BitVec.ofNat 32 (b2n s.otp.busy.isSome + 2 * s.otp.slot.val + 32 * b2n s.otp.verifyFail + 64 * b2n s.otp.interrupted + 0x10000 * s.otp.words)

def slotsWord (s : State) : Word :=
  (consumedMask s).zeroExtend 32 ||| (s.otp.validSlots.zeroExtend 32 <<< 16) ||| (bitWord [slotsExhausted s] <<< 31)

def marginalWord (s : State) : Word :=
  s.otp.slotMarg.zeroExtend 32 ||| (bitWord [s.otp.cMarg, s.otp.hallMarg] <<< 16) ||| (s.otp.margCnt.zeroExtend 32 <<< 24)

def locksWord (s : State) : Word :=
  BitVec.ofNat 32 (bits ((List.range 5).map (lockBlown s)) + 256 * bits ((List.range 5).map fun i => lockBlown s (i + 5)))

def lineWord (s : State) : Word := bitWord [s.host.alertArmed, alertLow s, irqLow s]

/-- Identity and status. -/
def identWord (s : State) (b : HostBus) (a : Nat) : Word :=
  match a with
  | 0x00 => devIdWord | 0x04 => revWord s | 0x08 => low32 Config.dieId | 0x0C => high32 Config.dieId
  | 0x10 => stateWord s | 0x14 => errCntWord s | 0x18 => protoCntWord s | 0x1C => cntFlags s
  | 0x20 => low32 s.tb | 0x24 => tbHi s b | 0x28 => configWord s | 0x2C => s.host.scratch
  | _ => 0

/-- Fault summary and capture. -/
def faultWord (s : State) (b : HostBus) (a : Nat) : Word :=
  match a with
  | 0x200 => faultSum s | 0x204 => s.fc.feAddr | 0x208 => captureWord s | 0x20C => low32 s.fc.feTb | 0x210 => feHi s b
  | 0x214 => s.fc.q8Ovf.n.zeroExtend 32 ||| (bitWord [s.fc.q8Ovf.sat] <<< 16)
  | 0x218 => stopPorts s | 0x21C => stopLoads s | 0x220 => failedPhases s | 0x224 => failedUnits s | 0x228 => failedSensors s
  | _ => 0

/-- Shadows, wires and OTP status. -/
def otpReg (s : State) (a : Nat) : Word :=
  if a = 0x300 then bitWord [s.aon.arm, s.wires.debugLock]
  else if a < 0x31C then shadowWord s ((a - 0x304) / 4)
  else if a = 0x31C then s.aon.shSelect.zeroExtend 32
  else if a < 0x338 then s.wires.words.toList.getD ((a - 0x320) / 4) 0
  else match a with
    | 0x340 => burnWordReg s | 0x344 => slotsWord s | 0x348 => marginalWord s | 0x34C => locksWord s
    | _ => 0

def intWord (s : State) (a : Nat) : Word :=
  match a with
  | 0x400 => (pendingWord s).zeroExtend 32 | 0x404 => s.host.irqEn.zeroExtend 32 | 0x408 => s.host.alertEn.zeroExtend 32
  | 0x40C => (rawWord s).zeroExtend 32 | 0x414 => lineWord s
  | _ => 0

/-- A defined word as a target reads it. -/
def readWord (s : State) (b : HostBus) (a : Nat) : Word :=
  if a < 0x100 then identWord s b a
  else if a < 0x200 then ringWord s (fin16 ((a - 0x100) / 16)) (a % 16)
  else if a < 0x300 then faultWord s b a
  else if a < 0x400 then otpReg s a
  else if a < 0x1000 then intWord s a
  else if a < 0x2000 then winWord s (fin16 ((a - 0x1000) / 1024)) (a % 1024)
  else BitVec.ofNat 32 (ofLe (memReadN s.snap.front (a - 0x2000) 4))

def latchTb (b : HostBus) (s : State) : State :=
  let v := some (high32 s.tb)
  { s with host := match b with | .spi => { s.host with tbHiSpi := v } | .hbus => { s.host with tbHiHbus := v } }

def latchFe (b : HostBus) (s : State) : State :=
  let v := some (high32 s.fc.feTb)
  { s with host := match b with | .spi => { s.host with feHiSpi := v } | .hbus => { s.host with feHiHbus := v } }

/-- What the latching of a word does. -/
def readEffect (b : HostBus) (a : Nat) (s : State) : State :=
  if a = 0x20 then latchTb b s
  else if a = 0x20C then latchFe b s
  else if 0x1400 ≤ a && a < 0x2000 then touchEntry b (fin16 ((a - 0x1000) / 1024)) (a % 1024) s
  else s

/-! ### Writing (R347, R348, R376 to R383) -/

/-- The bits of the bytes written. -/
def byteMask (m : BitVec 4) : Word :=
  BitVec.ofNat 32 (255 * b2n (m.getLsbD 0) + 0xFF00 * b2n (m.getLsbD 1) + 0xFF0000 * b2n (m.getLsbD 2) + 0xFF000000 * b2n (m.getLsbD 3))

/-- The unwritten bytes keep their values. -/
def merge (old v : Word) (m : BitVec 4) : Word := (old &&& ~~~(byteMask m)) ||| (v &&& byteMask m)

/-- R383, R366: edge bits written with 1 clear; a cleared alert cause re-arms the latch while another is pending. -/
def clearPending (m : BitVec 13) (s : State) : State :=
  let clr := m &&& edgeMask
  let s1 := { s with host := { s.host with intPend := s.host.intPend &&& ~~~clr } }
  if clr &&& s.host.intPend &&& s.host.alertEn ≠ 0 && pendingWord s1 &&& s.host.alertEn ≠ 0 then { s1 with host := { s1.host with alertArmed := true } } else s1

/-- R383: edge bits forced pending. -/
def forcePending (m : BitVec 13) (s : State) : State :=
  armAlert s { s with host := { s.host with intPend := s.host.intPend ||| (m &&& edgeMask) } }

def clearHostErr (s : State) : State := { s with host := { s.host with hostErr := false } }

/-- R380: the capture re-armed; no fault cleared. -/
def rearmCapture (s : State) : State := { s with fc := { s.fc with feValid := false } }

/-- CRC_ERR, REFUSED and WIN_ERR of a block, bit by bit (R376). -/
def clearRingFlags (q : Fin 16) (m : BitVec 3) (s : State) : State :=
  let r := s.ring[q]
  putRing q { r with crcErr := r.crcErr && !m.getLsbD 0, refused := r.refused && !m.getLsbD 1, winErr := r.winErr && !m.getLsbD 2 } s

/-- R381: the shadow words, ignored under the debug lock; ARM is no shadow word. -/
def writeShadow (a : Nat) (v : Word) (m : BitVec 4) (s : State) : State :=
  if a = 0x300 then
    if m.getLsbD 0 then { s with aon := { s.aon with arm := v.getLsbD 0 } } else s
  else if s.wires.debugLock then s
  else if a = 0x31C then { s with aon := { s.aon with shSelect := (merge (s.aon.shSelect.zeroExtend 32) v m).truncate 6 } }
  else if a < 0x31C then
    let w := (a - 0x304) / 4
    let x := merge (shadowWord s w) v m &&& shadowMask w
    { s with aon := { s.aon with shadow := s.aon.shadow.set (w % 6) x (Nat.mod_lt _ (by decide)), shHeld := putBit s.aon.shHeld w true } }
  else s

/-- Bytes of one word of the Q0 window: within the credit they land, beyond it they are ignored and flagged (R379). -/
def writeSlot (o : Nat) (v : Word) (m : BitVec 4) (s : State) : State :=
  let slot := o / 256
  if slot < credit 0 s.ring[(0 : Fin 16)] then
    let a := q0Place s slot (o % 256)
    let put (mem : Mem) (i : Nat) : Mem := if m.getLsbD i then memWrite mem (a + i) (BitVec.ofNat 8 (v.toNat / 2 ^ (8 * i))) else mem
    { s with mbox := { s.mbox with q0mem := (List.range 4).foldl put s.mbox.q0mem } }
  else ringErr 0 (putRing 0 { s.ring[(0 : Fin 16)] with winErr := true } s)

/-- The word of a ring's control block at an offset. -/
def writeRingWord (b : HostBus) (q : Fin 16) (o : Nat) (v : Word) (m : BitVec 4) (s : State) : State :=
  if o = 0 && 1 ≤ q.val && q.val ≤ 3 && (m.getLsbD 2 || m.getLsbD 3) then
    writeCidx b q (BitVec.ofNat 16 ((merge (ringWord s q 0) v m).toNat / 65536)) s
  else if o = 8 && q = 0 && m.getLsbD 0 then doorbell b (v.toNat % 8) s
  else if o = 12 && m.getLsbD 2 then clearRingFlags q (BitVec.ofNat 3 (v.toNat / 65536)) s
  else s

def writeIntWord (a : Nat) (v : Word) (m : BitVec 4) (s : State) : State :=
  let w : BitVec 13 := (v &&& byteMask m).truncate 13
  match a with
  | 0x400 => clearPending w s
  | 0x404 => { s with host := { s.host with irqEn := (merge (s.host.irqEn.zeroExtend 32) v m).truncate 13 } }
  | 0x408 => { s with host := { s.host with alertEn := (merge (s.host.alertEn.zeroExtend 32) v m).truncate 13 } }
  | 0x410 => forcePending w s
  | _ => s

/-- One committed word; read-only fields ignore it (R12). -/
def commitWord (b : HostBus) (a : Nat) (v : Word) (m : BitVec 4) (s : State) : State :=
  if a = 0x10 then (if m.getLsbD 0 && v.getLsbD 6 then clearHostErr s else s)
  else if a = 0x2C then { s with host := { s.host with scratch := merge s.host.scratch v m } }
  else if a < 0x100 then s
  else if a < 0x200 then writeRingWord b (fin16 ((a - 0x100) / 16)) (a % 16) v m s
  else if a = 0x208 then (if m.getLsbD 3 && v.msb then rearmCapture s else s)
  else if a < 0x300 then s
  else if a < 0x320 then writeShadow a v m s
  else if a < 0x400 then s
  else if a < 0x1000 then writeIntWord a v m s
  else if a < 0x1400 then writeSlot (a - 0x1000) v m s
  else s

/-! ### Bursts (R346, R347, R350) -/

/-- The bytes that a target returns from an address on: a word is latched at its first byte; a reserved byte is a bus error. -/
def readBytes (b : HostBus) : Nat → Nat → Option (Nat × Word) → State → List Byte × State
  | 0, _, _, s => ([], s)
  | n + 1, a, l, s =>
    let next := (a + 1) % 65536
    if !definedAddr a then
      let (bs, t) := readBytes b n next l (hostError b .read a s)
      ((match b with | .spi => 0x00 | .hbus => 0xFF) :: bs, t)
    else
      let w := a / 4 * 4
      let v := match l with | some (w', v) => if w' = w then v else readWord s b w | none => readWord s b w
      let fresh := match l with | some (w', _) => decide (w' ≠ w) | none => true
      let s1 := if fresh then readEffect b w s else s
      let (bs, t) := readBytes b n next (some (w, v)) s1
      (BitVec.ofNat 8 (v.toNat / 2 ^ (8 * (a % 4))) :: bs, t)

/-- Bytes collected for a word that is not yet committed. -/
structure Pend where
  word : Nat
  val  : Word := 0
  mask : BitVec 4 := 0

def commitPend (b : HostBus) (p : Option Pend) (s : State) : State :=
  match p with | some x => commitWord b x.word x.val x.mask s | none => s

def addByte (a : Nat) (v : Byte) (p : Pend) : Pend :=
  { p with val := merge p.val (v.zeroExtend 32 <<< (8 * (a % 4))) (1#4 <<< (a % 4)), mask := p.mask ||| (1#4 <<< (a % 4)) }

/-- One byte of a write transfer to a defined address. -/
def writeByte (b : HostBus) (a : Nat) (v : Byte) (p : Option Pend) (s : State) : Option Pend × State :=
  let w := a / 4 * 4
  let (p1, s1) := match p with
    | some x => if x.word = w then (x, s) else ({ word := w }, commitPend b p s)
    | none => ({ word := w }, s)
  let p2 := addByte a v p1
  if a % 4 = 3 then (none, commitPend b (some p2) s1) else (some p2, s1)

end Sys2Proof.Machine
end

