-- ==== Sys2Proof/Machine/HostBus.lean ====
section
/-! DEFINITION. The two host targets: SPI frames, HBUS transactions, the alert response, and the register accesses that they
carry, each also as a row of its own (R345 to R366). A transfer is one step (log 33); what the device returned stands in
`host.out`, the acknowledges of an HBUS transaction in `host.acks`. -/

namespace Sys2Proof.Machine
open Sys2Proof

/-- What a transaction returned. -/
def answer (out : List Byte) (acks : List Bool) (s : State) : State := { s with host := { s.host with out := out, acks := acks } }

/-- Nothing is driven or acknowledged while the targets are held in reset (R345). -/
def whenLive (f : State → State) (s : State) : State := if s.host.released then f s else answer [] [false] s

/-! ### SPI (R351 to R355) -/

/-- The status byte (table "SPI status byte"). -/
def spiStatus (s : State) : Byte :=
  byte (bits [s.host.busErr, s.host.frameErr, decide (credit 0 s.ring[(0 : Fin 16)] ≠ 0), irqLow s, decide (ringCount s.ring[(2 : Fin 16)] ≠ 0),
    decide (ringCount s.ring[(1 : Fin 16)] ≠ 0), decide (s.dev = .standby), s.mbox.ready])

/-- The status byte returned in full clears its two event bits (R353). -/
def statusTaken (s : State) : State := { s with host := { s.host with frameErr := false, busErr := false } }

/-- A frame ended early, or with a bad command byte (R352, R355). -/
def spiProtocol (s : State) : State := { s with host := { s.host with frameErr := true, spiProto := s.host.spiProto.bump } }

/-- Data bytes of a write frame, at consecutive addresses (R346, R347). -/
def spiWrite : Nat → List Byte → Option Pend → State → State
  | _, [], p, s => commitPend .spi p s
  | a, v :: vs, p, s =>
    let next := (a + 1) % 65536
    if definedAddr a then
      let (p1, s1) := writeByte .spi a v p s
      spiWrite next vs p1 s1
    else spiWrite next vs none (hostError .spi .write a (commitPend .spi p s))

/-- The bytes of a frame of at least one whole byte, its status byte first. -/
def spiBytes (mosi : List Byte) (s : State) : State :=
  let st := spiStatus s
  let s1 := statusTaken s
  let n := mosi.length
  let fill := List.replicate (n - 1) (0 : Byte)
  if byteAt mosi 0 &&& 0x7F ≠ 0 then answer (st :: fill) [] (spiProtocol s1)
  else if n < 3 then answer (st :: fill) [] (if n = 2 then spiProtocol s1 else s1)
  else
    let a := ofLe (slice mosi 1 2)
    if (byteAt mosi 0).msb then
      let (bs, t) := readBytes .spi (n - 4) a none s1
      answer (st :: (List.replicate (min 3 (n - 1)) 0 ++ bs)) [] t
    else answer (st :: fill) [] (spiWrite a (mosi.drop 3) none s1)

/-- A frame ended at a whole byte; no byte at all counts as ended before its address. -/
def spiFrame (mosi : List Byte) (s : State) : State := if mosi.isEmpty then answer [] [] (spiProtocol s) else spiBytes mosi s

/-- A bad command byte or a cut address has already counted the frame once; a frame of one byte with a bad command byte too, by R352
over the poll of R355 (log 125). -/
def spiCounted (mosi : List Byte) : Bool := mosi.isEmpty || mosi.length = 2 || byteAt mosi 0 &&& 0x7F ≠ 0

/-- The partial byte is discarded, and the frame counts as ended early (R355). -/
def spiCut (mosi : List Byte) (bits : Nat) (s : State) : State :=
  let s1 := spiFrame mosi s
  if bits = 0 || spiCounted mosi then s1 else spiProtocol s1

/-! ### HBUS (R357 to R363) -/

def setPointer (a : Nat) (s : State) : State := { s with host := { s.host with pointer := BitVec.ofNat 16 a } }

/-- Written bytes within their page, with the acknowledges; the first to a reserved address is refused, and all after it. -/
def hbusBytes (p0 : Nat) : Nat → List Byte → Option Pend → State → List Bool × State
  | _, [], p, s => ([], commitPend .hbus p s)
  | i, v :: vs, p, s =>
    let a := p0 / 32 * 32 + (p0 + i) % 32
    if definedAddr a then
      let (p1, s1) := writeByte .hbus a v p s
      let (ks, t) := hbusBytes p0 (i + 1) vs p1 (setPointer (a + 1) s1)
      (true :: ks, t)
    else ((v :: vs).map fun _ => false, hostError .hbus .write a (commitPend .hbus p s))

/-- A transaction with its pointer and written bytes; the bytes a commit delays are written at its end (R347). -/
def hbusWriteAt (p : Half) (data : List Byte) (s : State) : State :=
  let (ks, t) := hbusBytes p.toNat 0 data none (setPointer p.toNat s)
  answer [] ([true, true, true] ++ ks) t

/-- Bytes read from the pointer on, across pages. -/
def hbusRead (acks : List Bool) (n : Nat) (s : State) : State :=
  let a := s.host.pointer.toNat
  let (bs, t) := readBytes .hbus n a none s
  answer bs acks (setPointer ((a + n) % 65536) t)

def hbusReadAt (p : Half) (n : Nat) (s : State) : State := hbusRead [true, true, true, true] n (setPointer p.toNat s)

/-- A protocol event (R361, R362). -/
def hbusProtocol (s : State) : State := { s with host := { s.host with hbusProto := s.host.hbusProto.bump } }

/-- The part of a transaction that came before its end: pointer, written bytes, bytes delivered. -/
def hbusPart (p : Option Half) (written : List Byte) (n : Nat) (s : State) : State :=
  let s1 := match p with | some x => hbusWriteAt x written s | none => answer [] [true] s
  if n = 0 then s1 else hbusRead (s1.host.acks ++ [true]) n s1

/-! ### Alert response (R366) -/

/-- Another device that answers 0x0C at once wins with a lower address. -/
def alertWon (s : State) (rival : Option (BitVec 7)) : Bool :=
  match rival with | some r => decide (s.host.haddr ≤ r) | none => true

def alertRespond (rival : Option (BitVec 7)) (s : State) : State :=
  if alertLow s then
    let own := if alertWon s rival then s.host.haddr else rival.getD 0
    let s1 := if alertWon s rival then { s with host := { s.host with alertArmed := false } } else s
    answer [own.zeroExtend 8 <<< 1] [true] s1
  else answer [] [false] s

/-! ### The rows of the transactions -/

def execSpiStatusPoll (s : State) : Host.Outcome State Fault Refusal :=
  .next (whenLive (fun s => answer [spiStatus s] [] (statusTaken s)) s)

def execSpiFrame (mosi : List Byte) (s : State) : Host.Outcome State Fault Refusal := .next (whenLive (spiFrame mosi) s)

def execSpiFrameEndedEarly (mosi : List Byte) (partialBits : BitVec 3) (s : State) : Host.Outcome State Fault Refusal :=
  .next (whenLive (spiCut mosi partialBits.toNat) s)

def execHbusWrite (pointer : Half) (data : List Byte) (s : State) : Host.Outcome State Fault Refusal :=
  .next (whenLive (hbusWriteAt pointer data) s)

def execHbusPointerSet (pointer : Half) (s : State) : Host.Outcome State Fault Refusal := .next (whenLive (hbusWriteAt pointer []) s)

def execHbusReadFromPointer (pointer : Half) (count : Nat) (s : State) : Host.Outcome State Fault Refusal :=
  .next (whenLive (hbusReadAt pointer count) s)

def execHbusCurrentPointerRead (count : Nat) (s : State) : Host.Outcome State Fault Refusal :=
  .next (whenLive (hbusRead [true] count) s)

/-- R361: a byte whose acknowledge slot the host cut was delivered all the same; no field of the window clears on a read. -/
def execHbusProtocolError (pointer : Option Half) (written : List Byte) (readBytes : Nat) (_ackCut : Bool) (s : State) :
    Host.Outcome State Fault Refusal :=
  .next (whenLive (fun s => hbusProtocol (hbusPart pointer written readBytes s)) s)

def execHbusClockLowTimeout (pointer : Option Half) (written : List Byte) (readBytes : Nat) (s : State) :
    Host.Outcome State Fault Refusal :=
  .next (whenLive (fun s => hbusProtocol (hbusPart pointer written readBytes s)) s)

def execAlertResponse (rival : Option (BitVec 7)) (s : State) : Host.Outcome State Fault Refusal :=
  .next (whenLive (alertRespond rival) s)

/-! ### The rows of the register accesses -/

def execQ0Doorbell (bus : HostBus) (count : BitVec 3) (s : State) : Host.Outcome State Fault Refusal :=
  .next (whenLive (doorbell bus count.toNat) s)

def execQ0WindowWrite (offset : BitVec 10) (data : List Byte) (s : State) : Host.Outcome State Fault Refusal :=
  .next (whenLive (spiWrite (0x1000 + offset.toNat) data none) s)

/-- A byte of a Q1 to Q3 window read: its word is latched, and its entry's first read checks the ring CRC. -/
def execRingWindowRead (bus : HostBus) (ring : Fin 3) (offset : BitVec 10) (s : State) : Host.Outcome State Fault Refusal :=
  .next (whenLive (fun s =>
    let (bs, t) := readBytes bus 1 (0x1400 + 0x400 * ring.val + offset.toNat) none s
    answer bs [] t) s)

def execCidxWrite (bus : HostBus) (ring : Fin 3) (cidx : Half) (s : State) : Host.Outcome State Fault Refusal :=
  .next (whenLive (writeCidx bus (fin16 (ring.val + 1)) cidx) s)

def execFeValidRearm (s : State) : Host.Outcome State Fault Refusal := .next (whenLive rearmCapture s)
def execIntPendClear (mask : BitVec 13) (s : State) : Host.Outcome State Fault Refusal := .next (whenLive (clearPending mask) s)
def execIntForce (mask : BitVec 13) (s : State) : Host.Outcome State Fault Refusal := .next (whenLive (forcePending mask) s)
def execRingFlagClear (ring : Fin 16) (mask : BitVec 3) (s : State) : Host.Outcome State Fault Refusal :=
  .next (whenLive (clearRingFlags ring mask) s)
def execHostErrClear (s : State) : Host.Outcome State Fault Refusal := .next (whenLive clearHostErr s)

def execTbLoRead (bus : HostBus) (s : State) : Host.Outcome State Fault Refusal :=
  .next (whenLive (fun s => answer (le32 (low32 s.tb)) [] (latchTb bus s)) s)

/-- One committed word; at a reserved address it is a bus error instead (R350). -/
def execRegisterWrite (bus : HostBus) (addr : Half) (value : Word) (bytes : BitVec 4) (s : State) : Host.Outcome State Fault Refusal :=
  let a := addr.toNat / 4 * 4
  .next (whenLive (if definedAddr a then commitWord bus a value bytes else hostError bus .write a) s)

/-- A reserved byte: a write is ignored, and refused on HBUS; a read gives 0x00 on SPI and 0xFF on HBUS (R354, R363). -/
def execHostBusError (bus : HostBus) (addr : Half) (isWrite : Bool) (s : State) : Host.Outcome State Fault Refusal :=
  .next (whenLive (fun s =>
    if definedAddr addr.toNat then s
    else
      let s1 := hostError bus (if isWrite then .write else .read) addr.toNat s
      match bus, isWrite with
      | .spi, _ => answer [0x00] [] s1
      | .hbus, false => answer [0xFF] [] s1
      | .hbus, true => answer [] [false] s1) s)

end Sys2Proof.Machine
end

