-- ==== Sys2Proof/Machine/Power.lean ====
section
/-! DEFINITION. Power, resets, ship mode and the reed switch (chapter 20): what each reset keeps (R509), the part of the boot
that the hardware carries out (steps 1 to 3 of R511), ship mode and its wakes, and the Clearing reset. -/

namespace Sys2Proof.Machine
open Sys2Proof

/-! ### A burn that a reset cuts (R466, R467, R471, R477, R478, R487) -/

/-- A word whose pulse was cut reads weak. -/
def weaken (a : Nat) (s : State) : State :=
  { s with otp := { s.otp with marginal := if s.otp.marginal.contains a then s.otp.marginal else s.otp.marginal ++ [a] } }

/-- An image: 1 to 511 of its words without a commit word, or, where it enrols a key, the slot committed and the
position's digest alone burned. -/
def cutImage (s : State) : State :=
  let (k, s1) := freeBelow (511 + b2n (burnEnrol s).isSome) s
  if k < 511 then burnWords ((imageWords s).take (k + 1)) s1
  else match burnEnrol s with
    | some e => burnBytes (keyBase e.pos) e.digest (commitImage s1)
    | none => s1

/-- C words and the revocation word: whole words up to one that is left weak, or all of them; a lock pair cut reads blown. -/
def cutWords (l : Long) (s : State) : State :=
  let ws := burnList s l
  let (k, s1) := freeBelow (ws.length + 1) s
  let s2 := burnWords (ws.take (k + 1)) s1
  match l.kind, ws[k]? with
  | .lock, _ => s2
  | _, some w => weaken w.1 s2
  | _, none => s2

/-- A burn in progress is cut (log 1 for how far it came). -/
def cutBurn (s : State) : State :=
  match s.otp.busy with
  | none => s
  | some l => if l.kind = .image then cutImage s else cutWords l s

/-! ### What a reset keeps (R509) -/

/-- Everything that every reset loses is lost; the one-time memory, the AON domain, the Ride's voltage and the commands
waiting outside stay. -/
def lost (s : State) : State :=
  let c := cutBurn s
  { pending := c.pending, free := c.free, aon := c.aon, ride := { v := c.ride.v },
    otp := { mem := c.otp.mem, marginal := c.otp.marginal, scalarBad := c.otp.scalarBad } }

/-- The AON domain without power: only the level at RESET_N is from outside. -/
def aonLost (a : Aon) : Aon := { powered := false, sapOut := false, resetNLow := a.resetNLow }

/-- A load port that a reset-pin or host reset meets: the safe mask runs on, the others go Off; the values written return to
the factory's (R273, R510; log 12). -/
def loadKept (safe : Bool) (l : Load) : Load :=
  if safe then { state := l.state, commanded := l.commanded, fromOn := l.fromOn, retry := l.retry } else {}

/-- The capture registers and Q8_OVF_CNT, which lie in the PROT domain (R490). -/
def captureKept (f : Collector) : Collector :=
  { f with capture := none, q8Seen := f.q8Ovf.n, pend := 0, pendEv := 0, inject := [] }

/-- What the PROT domain keeps through a reset-pin or host reset (R509, R510): TB, clocks and wires, the population of the
phases, Taproot, the safe-mask ports, the capture, the thermal comparators; every channel stops. -/
def protKept (s : State) : State :=
  let l := lost s
  let s1 := { l with
    tb := s.tb, tbRuns := s.tbRuns, lastFrame := s.lastFrame, wires := s.wires,
    clk := { s.clk with vdrvOk := !s.clk.vdrvLow, switchDue := false },
    tap := { s.tap with trips := {} }, fc := captureKept s.fc,
    ride := { v := s.ride.v, low := s.ride.low },
    phase := vmap s.phase fun p => { populated := p.populated },
    load := vmapIdx s.load fun p x => loadKept (safeMask s p) x,
    therm := { comp := s.therm.comp },
    chan := s.chan }
  each (List.finRange 16) (fun c s => onChan c (addStop .reset) (stopChan c s)) s1

/-! ### Step 3 of the boot (R511): the C-region on its wires, PROT running -/

/-- Channels at a Boot: off, with no stop but that of a comparator still tripped. -/
def chanAtBoot (s : State) : Chan := { stops := if s.therm.comp = 0 then [] else [.thermalHw] }

/-- A safe-mask port is commanded on at PROT's power-up, and when a resend first names it; it stays off where a command
turned it off before a reset that keeps PROT (R279). Fuse states are cleared (R509). -/
def loadAtBoot (was safe : Bool) (l : Load) : Load :=
  { l with commanded := safe && (!was || l.commanded), retry := 0,
           state := if l.state = .latched || l.state = .retryWait then .off else l.state }

/-- Taproot is armed where the wires now allow it; where it runs already it goes on (R63, R510). -/
def tapAtBoot (s : State) : State :=
  if !tapAllowed s then { s with tap := { s.tap with state := .off, active := false, blocking := false } }
  else if s.tap.state = .off then tapArm s else s

/-- R511 step 3. -/
def bootProt (s : State) : State :=
  let s1 := sendC { s with boot := .prot, chan := .replicate 16 (chanAtBoot s) }
  let s2 := { s1 with load := vmapIdx s1.load fun p l => loadAtBoot (safeMask s p) (safeMask s1 p) l }
  loadRefresh (tapAtBoot s2)

/-! ### Power -/

/-- R505: the AON domain powers up with cause 1 once the highest voltage at the VP balls has stayed at or above 4.5 V for 1 ms, by the
lowest value that it had then, in mV; VCC is then awaited. -/
def execPowerOnReset (low : Q) (s : State) : Host.Outcome State Fault Refusal :=
  .next (if s.aon.powered || low < 4500 then s
    else { lost s with aon := { resetNLow := s.aon.resetNLow } })

/-- R505: everything is lost with the AON domain, the Dormant flags and the shadows among it, once the highest voltage at the VP balls
has stayed below 4.2 V for 50 µs, by the highest value that it had then, in mV. -/
def execAonPowerLoss (high : Q) (s : State) : Host.Outcome State Fault Refusal :=
  .next (if s.aon.powered && high < 4200 then { lost s with dev := .unpowered, aon := aonLost s.aon } else s)

/-- The test of R532 on ISP − ISN, in mV, of the battery phases p ≥ 1, phase p of port n at place 3n + p − 1: above 2.0 V the phase is
unpopulated. -/
def populate (sense : List Q) (s : State) : State :=
  { s with phase := vmapIdx s.phase fun k p =>
      if 12 ≤ k.val && k.val % 4 ≠ 0 then { p with populated := decide (sense.getD ((k.val - 12) / 4 * 3 + (k.val % 4 - 1)) 0 ≤ 2000) } else p }

/-- R506, R511: VCC, in mV, above 2.65 V is awaited in Boot; step 3 follows at once. -/
def execVccValid (vcc : Q) (sense : List Q) (s : State) : Host.Outcome State Fault Refusal :=
  .next (if s.dev = .boot && s.boot = .awaitVcc && !s.clk.vcc && s.aon.powered && 2650 < vcc then
      bootProt (populate sense { s with clk := { s.clk with vcc := true } })
    else s)

/-- R506: VCC has stayed below 2.55 V for 5 µs, by the highest value that it had then, in mV; in ship mode and the Clearing reset VCC
matters to nothing (R507, R522). -/
def execBrownOut (high : Q) (s : State) : Host.Outcome State Fault Refusal :=
  .next (if s.clk.vcc && high < 2550 then { lost s with aon := { (lost s).aon with cause := 2 } } else s)

/-! ### The reset pin and the host reset (R508, R510) -/

def execResetPin (s : State) : Host.Outcome State Fault Refusal :=
  let low (s : State) (c : Byte) : State := { s with aon := { s.aon with resetNLow := true, cause := c } }
  .next (if s.clk.vcc then low (protKept s) 3 else low s s.aon.cause)

/-- R511: at the release of the pin a reset-pin or host reset goes on with step 3. -/
def execResetNRelease (s : State) : Host.Outcome State Fault Refusal :=
  let s1 := { s with aon := { s.aon with resetNLow := false } }
  .next (if s.aon.resetNLow && s.clk.vcc && s.dev = .boot && s.boot = .awaitVcc then bootProt s1 else s1)

/-- R414, R510: 10 ms after the response of RESET kind 0. -/
def execHostReset (s : State) : Host.Outcome State Fault Refusal :=
  .next (if s.mbox.resetDue && s.clk.vcc then
      let k := protKept s
      let s1 := { k with aon := { k.aon with cause := 4 } }
      if s1.aon.resetNLow then s1 else bootProt s1
    else s)

/-! ### Ship mode (R517 to R520) -/

/-- R517: the wake enables and FLAGS bit 0 are latched; every domain but AON goes off. -/
def enterShip (flags : Byte) (s : State) : State :=
  let l := lost s
  { l with dev := .ship,
           aon := { l.aon with shipLatch := true, shipSrcEn := (s.wires.words[(3 : Fin 6)]).setWidth 8, shipReed := reedEn s,
                               shipFlag0 := flags.getLsbD 0, wakeArmed := 0, sapOut := false } }

def execShipModeEntry (s : State) : Host.Outcome State Fault Refusal :=
  .next (match s.mbox.shipDue with
    | some f => if s.dev = .running || s.dev = .standby || s.dev = .deviceStop then enterShip f s else s
    | none => s)

/-- R519: a latched port's comparator arms once the port has stayed below 5.0 V for 1 s since the entry, by the highest value of that
second, in mV. -/
def execWakeComparatorArm (port : Fin 8) (high : Q) (s : State) : Host.Outcome State Fault Refusal :=
  .next (if s.dev = .ship && s.aon.shipSrcEn.getLsbD port.val && high < 5000 then
      { s with aon := { s.aon with wakeArmed := putBit s.aon.wakeArmed port.val true } }
    else s)

/-- A wake within a hold (R521 rule 4). -/
def reedWoke (r : Reed) : Reed := match r with | .holding two _ => .holding two true | r => r

/-- R520: the latch clears, SAP_OUT turns on, and the boot starts at step 2. -/
def wake (cause : Byte) (s : State) : State :=
  let l := lost s
  { l with aon := { l.aon with cause := cause, shipLatch := false, sapOut := true, wakeArmed := 0, reed := reedWoke l.aon.reed } }

/-- R519: an armed comparator at 6.0 V through its filter of 10 ms, by the lowest value in that time, in mV. -/
def execShipWakeSource (port : Fin 8) (low : Q) (s : State) : Host.Outcome State Fault Refusal :=
  .next (if s.dev = .ship && s.aon.wakeArmed.getLsbD port.val && 6000 ≤ low then wake 6 s else s)

/-! ### The reed switch (R521) and the Clearing reset (R522) -/

/-- The reed enable in force: the copy latched in ship mode; before the C-region has been sent, enabled (log 34). -/
def reedListens (s : State) : Bool :=
  s.aon.powered &&
  (if s.dev = .ship then s.aon.shipReed else if s.clk.vcc then reedEn s else true)

def setReed (r : Reed) (s : State) : State := { s with aon := { s.aon with reed := r } }

def isHeld (r : Reed) : Bool := match r with | .holding _ _ => true | _ => false

def execReedHoldBegin (s : State) : Host.Outcome State Fault Refusal :=
  .next (if reedListens s && s.aon.reed = .idle then setReed (.holding false false) s else s)

/-- A release after a wake calls for 1 s high before a new hold counts. -/
def execReedHoldEnd (s : State) : Host.Outcome State Fault Refusal :=
  .next (match s.aon.reed with
    | .holding _ woke => setReed (if woke then .waitRelease else .idle) s
    | _ => s)

/-- R521 rule 2: in ship mode the device wakes; otherwise the reed-hold event is due in Anvil's next policy frame. -/
def execReedHold2s (s : State) : Host.Outcome State Fault Refusal :=
  .next (match s.aon.reed with
    | .holding false woke =>
      if !reedListens s then s
      else if s.dev = .ship then wake 7 (setReed (.holding true woke) s)
      else setReed (.holding true woke) { s with aon := { s.aon with reed2sDue := true } }
    | _ => s)

/-- R522: the shutdown; cause 5, ARM cleared, the Dormant flags kept. -/
def clearing (s : State) : State :=
  let l := lost s
  { l with dev := .clearing,
           aon := { l.aon with cause := 5, arm := false, sapOut := false, shipLatch := false, wakeArmed := 0,
                               reed := .waitRelease, reed2sDue := false } }

def execClearingReset (s : State) : Host.Outcome State Fault Refusal :=
  .next (if isHeld s.aon.reed && reedListens s then clearing s else s)

/-- The end of the 400 ms: the boot starts at step 2. -/
def execClearingResetEnd (s : State) : Host.Outcome State Fault Refusal :=
  .next (if s.dev = .clearing then { s with dev := .boot, aon := { s.aon with sapOut := true } } else s)

def execReedRearm (s : State) : Host.Outcome State Fault Refusal :=
  .next (if s.aon.reed = .waitRelease then setReed .idle s else s)

end Sys2Proof.Machine
end

