-- ==== Sys2Proof/Machine/Dispatch.lean ====
section
/-! DEFINITION. One arm per command: a direct call of its meaning. -/

namespace Sys2Proof.Machine
open Sys2Proof

def exec (i : Instr) (s : State) : Host.Outcome State Fault Refusal :=
  match i with
  | .echo => Sys2Proof.Machine.execEcho s
  | .deviceInfo => Sys2Proof.Machine.execDeviceInfo s
  | .reset => Sys2Proof.Machine.execReset s
  | .shipMode => Sys2Proof.Machine.execShipMode s
  | .counterClear => Sys2Proof.Machine.execCounterClear s
  | .sbusTransfer lost outcome => Sys2Proof.Machine.execSbusTransfer lost outcome s
  | .paramSet => Sys2Proof.Machine.execParamSet s
  | .paramGet => Sys2Proof.Machine.execParamGet s
  | .paramRevert => Sys2Proof.Machine.execParamRevert s
  | .imageStage => Sys2Proof.Machine.execImageStage s
  | .imageTrial => Sys2Proof.Machine.execImageTrial s
  | .imageBurn => Sys2Proof.Machine.execImageBurn s
  | .imageStatus => Sys2Proof.Machine.execImageStatus s
  | .cBurn => Sys2Proof.Machine.execCBurn s
  | .lockBurn => Sys2Proof.Machine.execLockBurn s
  | .channelControl => Sys2Proof.Machine.execChannelControl s
  | .anneal => Sys2Proof.Machine.execAnneal s
  | .loopRead => Sys2Proof.Machine.execLoopRead s
  | .sourceRead => Sys2Proof.Machine.execSourceRead s
  | .batteryRead => Sys2Proof.Machine.execBatteryRead s
  | .chargerStatus => Sys2Proof.Machine.execChargerStatus s
  | .chargerClear => Sys2Proof.Machine.execChargerClear s
  | .equalise => Sys2Proof.Machine.execEqualise s
  | .cellRead => Sys2Proof.Machine.execCellRead s
  | .ovpClear => Sys2Proof.Machine.execOvpClear s
  | .usbRead => Sys2Proof.Machine.execUsbRead s
  | .loadSet => Sys2Proof.Machine.execLoadSet s
  | .loadClear => Sys2Proof.Machine.execLoadClear s
  | .loadRead => Sys2Proof.Machine.execLoadRead s
  | .assaySample codes ran => Sys2Proof.Machine.execAssaySample codes ran s
  | .assayStatus => Sys2Proof.Machine.execAssayStatus s
  | .telemetryNow => Sys2Proof.Machine.execTelemetryNow s
  | .thermalRead => Sys2Proof.Machine.execThermalRead s
  | .faultList => Sys2Proof.Machine.execFaultList s
  | .faultClear => Sys2Proof.Machine.execFaultClear s
  | .attest => Sys2Proof.Machine.execAttest s
  | .patchStage => Sys2Proof.Machine.execPatchStage s
  | .patchApply => Sys2Proof.Machine.execPatchApply s
  | .keyRevoke => Sys2Proof.Machine.execKeyRevoke s
  | .faultInject => Sys2Proof.Machine.execFaultInject s
  | .testDac codes ran => Sys2Proof.Machine.execTestDac codes ran s
  | .otpBurnComplete ok enrolOk => Sys2Proof.Machine.execOtpBurnComplete ok enrolOk s
  | .burnVccLow vcc wordsDone => Sys2Proof.Machine.execBurnVccLow vcc wordsDone s
  | .q0Doorbell bus count => Sys2Proof.Machine.execQ0Doorbell bus count s
  | .q0WindowWrite offset data => Sys2Proof.Machine.execQ0WindowWrite offset data s
  | .ringWindowRead bus ring offset => Sys2Proof.Machine.execRingWindowRead bus ring offset s
  | .cidxWrite bus ring cidx => Sys2Proof.Machine.execCidxWrite bus ring cidx s
  | .feValidRearm => Sys2Proof.Machine.execFeValidRearm s
  | .intPendClear mask => Sys2Proof.Machine.execIntPendClear mask s
  | .intForce mask => Sys2Proof.Machine.execIntForce mask s
  | .ringFlagClear ring mask => Sys2Proof.Machine.execRingFlagClear ring mask s
  | .hostErrClear => Sys2Proof.Machine.execHostErrClear s
  | .tbLoRead bus => Sys2Proof.Machine.execTbLoRead bus s
  | .registerWrite bus addr value bytes => Sys2Proof.Machine.execRegisterWrite bus addr value bytes s
  | .hostBusError bus addr isWrite => Sys2Proof.Machine.execHostBusError bus addr isWrite s
  | .alertResponse rival => Sys2Proof.Machine.execAlertResponse rival s
  | .spiStatusPoll => Sys2Proof.Machine.execSpiStatusPoll s
  | .spiFrame mosi => Sys2Proof.Machine.execSpiFrame mosi s
  | .spiFrameEndedEarly mosi partialBits => Sys2Proof.Machine.execSpiFrameEndedEarly mosi partialBits s
  | .hbusWrite pointer data => Sys2Proof.Machine.execHbusWrite pointer data s
  | .hbusPointerSet pointer => Sys2Proof.Machine.execHbusPointerSet pointer s
  | .hbusReadFromPointer pointer count => Sys2Proof.Machine.execHbusReadFromPointer pointer count s
  | .hbusCurrentPointerRead count => Sys2Proof.Machine.execHbusCurrentPointerRead count s
  | .hbusProtocolError pointer written readBytes ackCut => Sys2Proof.Machine.execHbusProtocolError pointer written readBytes ackCut s
  | .hbusClockLowTimeout pointer written readBytes => Sys2Proof.Machine.execHbusClockLowTimeout pointer written readBytes s
  | .sbusClockLowTimeout sclReleased pulses => Sys2Proof.Machine.execSbusClockLowTimeout sclReleased pulses s
  | .powerOnReset low => Sys2Proof.Machine.execPowerOnReset low s
  | .aonPowerLoss high => Sys2Proof.Machine.execAonPowerLoss high s
  | .vccValid vcc sense => Sys2Proof.Machine.execVccValid vcc sense s
  | .brownOut high => Sys2Proof.Machine.execBrownOut high s
  | .resetPin => Sys2Proof.Machine.execResetPin s
  | .hostReset => Sys2Proof.Machine.execHostReset s
  | .wardenRelease crystalValid => Sys2Proof.Machine.execWardenRelease crystalValid s
  | .wardenSelfTestComplete pass straps => Sys2Proof.Machine.execWardenSelfTestComplete pass straps s
  | .hostTargetRelease => Sys2Proof.Machine.execHostTargetRelease s
  | .anvilReady vRide => Sys2Proof.Machine.execAnvilReady vRide s
  | .otpReadPass marginal vcc => Sys2Proof.Machine.execOtpReadPass marginal vcc s
  | .shipModeEntry => Sys2Proof.Machine.execShipModeEntry s
  | .wakeComparatorArm port high => Sys2Proof.Machine.execWakeComparatorArm port high s
  | .shipWakeSource port low => Sys2Proof.Machine.execShipWakeSource port low s
  | .reedHoldBegin => Sys2Proof.Machine.execReedHoldBegin s
  | .reedHoldEnd => Sys2Proof.Machine.execReedHoldEnd s
  | .reedHold2s => Sys2Proof.Machine.execReedHold2s s
  | .clearingReset => Sys2Proof.Machine.execClearingReset s
  | .clearingResetEnd => Sys2Proof.Machine.execClearingResetEnd s
  | .reedRearm => Sys2Proof.Machine.execReedRearm s
  | .standbyEntry => Sys2Proof.Machine.execStandbyEntry s
  | .standbyExit cause => Sys2Proof.Machine.execStandbyExit cause s
  | .wakeWindowOpen => Sys2Proof.Machine.execWakeWindowOpen s
  | .wakeWindowEnd => Sys2Proof.Machine.execWakeWindowEnd s
  | .standbyWatchdogMiss anvil => Sys2Proof.Machine.execStandbyWatchdogMiss anvil s
  | .controlFrame hung bank => Sys2Proof.Machine.execControlFrame hung bank s
  | .policyFrame hostReading => Sys2Proof.Machine.execPolicyFrame hostReading s
  | .wardenFrame => Sys2Proof.Machine.execWardenFrame s
  | .engineFailureDeclared e => Sys2Proof.Machine.execEngineFailureDeclared e s
  | .engineRestart e => Sys2Proof.Machine.execEngineRestart e s
  | .engineVerified e => Sys2Proof.Machine.execEngineVerified e s
  | .anvilWatchdogMiss => Sys2Proof.Machine.execAnvilWatchdogMiss s
  | .anvilRestart => Sys2Proof.Machine.execAnvilRestart s
  | .wardenWatchdogExpiry => Sys2Proof.Machine.execWardenWatchdogExpiry s
  | .eccError ringSram index master double addr access syndrome => Sys2Proof.Machine.execEccError ringSram index master double addr access syndrome s
  | .internalBusError master access addr => Sys2Proof.Machine.execInternalBusError master access addr s
  | .crystalLost => Sys2Proof.Machine.execCrystalLost s
  | .ringPush ring master entry => Sys2Proof.Machine.execRingPush ring master entry s
  | .ringPop ring consumer crcOk => Sys2Proof.Machine.execRingPop ring consumer crcOk s
  | .consumerIndexWrite ring consumer index => Sys2Proof.Machine.execConsumerIndexWrite ring consumer index s
  | .stalledPush ring => Sys2Proof.Machine.execStalledPush ring s
  | .holdRelease => Sys2Proof.Machine.execHoldRelease s
  | .faultReport r => Sys2Proof.Machine.execFaultReport r s
  | .wardenTakeReport => Sys2Proof.Machine.execWardenTakeReport s
  | .configRecordTake => Sys2Proof.Machine.execConfigRecordTake s
  | .assayTrigger g entry after => Sys2Proof.Machine.execAssayTrigger g entry after s
  | .assaySetStart g after => Sys2Proof.Machine.execAssaySetStart g after s
  | .assaySetComplete g codes parityBad => Sys2Proof.Machine.execAssaySetComplete g codes parityBad s
  | .urgentRequest g hardware master inputs port late => Sys2Proof.Machine.execUrgentRequest g hardware master inputs port late s
  | .assaySetRestart g => Sys2Proof.Machine.execAssaySetRestart g s
  | .backgroundCalibration c ref0 ref1 ref2 => Sys2Proof.Machine.execBackgroundCalibration c ref0 ref1 ref2 s
  | .converterCheck g codes => Sys2Proof.Machine.execConverterCheck g codes s
  | .pathCheck g code => Sys2Proof.Machine.execPathCheck g code s
  | .ringPeriodBoundary ch sample => Sys2Proof.Machine.execRingPeriodBoundary ch sample s
  | .peakLimit phase at_ still => Sys2Proof.Machine.execPeakLimit phase at_ still s
  | .hiccup ch => Sys2Proof.Machine.execHiccup ch s
  | .hiccupOffTimeEnd ch measured => Sys2Proof.Machine.execHiccupOffTimeEnd ch measured s
  | .softStartComplete ch => Sys2Proof.Machine.execSoftStartComplete ch s
  | .retryResetInterval ch => Sys2Proof.Machine.execRetryResetInterval ch s
  | .phaseFailure phase cause => Sys2Proof.Machine.execPhaseFailure phase cause s
  | .probationComplete phase => Sys2Proof.Machine.execProbationComplete phase s
  | .profileNotReached phase edge => Sys2Proof.Machine.execProfileNotReached phase edge s
  | .vdrvUndervoltage lowest => Sys2Proof.Machine.execVdrvUndervoltage lowest s
  | .vdrvRecovery => Sys2Proof.Machine.execVdrvRecovery s
  | .bootstrapUndervoltage phase rideLeg => Sys2Proof.Machine.execBootstrapUndervoltage phase rideLeg s
  | .rideOvervoltage peak => Sys2Proof.Machine.execRideOvervoltage peak s
  | .rideOvervoltageRelease => Sys2Proof.Machine.execRideOvervoltageRelease s
  | .tierChange tier => Sys2Proof.Machine.execTierChange tier s
  | .loadShed cls => Sys2Proof.Machine.execLoadShed cls s
  | .shedRestore cls => Sys2Proof.Machine.execShedRestore cls s
  | .targetReached => Sys2Proof.Machine.execTargetReached s
  | .taprootEngage vRide vBat => Sys2Proof.Machine.execTaprootEngage vRide vBat s
  | .taprootColdRampEnd => Sys2Proof.Machine.execTaprootColdRampEnd s
  | .taprootBlock => Sys2Proof.Machine.execTaprootBlock s
  | .taprootRelease vBat => Sys2Proof.Machine.execTaprootRelease vBat s
  | .taprootOvercurrent vBat => Sys2Proof.Machine.execTaprootOvercurrent vBat s
  | .taprootRearm => Sys2Proof.Machine.execTaprootRearm s
  | .taprootUndervoltage below => Sys2Proof.Machine.execTaprootUndervoltage below s
  | .sourceWithdrawal usb port v => Sys2Proof.Machine.execSourceWithdrawal usb port v s
  | .handoverComplete usb port present => Sys2Proof.Machine.execHandoverComplete usb port present s
  | .inputPresent port => Sys2Proof.Machine.execInputPresent port s
  | .inputLost port => Sys2Proof.Machine.execInputLost port s
  | .debounceComplete port => Sys2Proof.Machine.execDebounceComplete port s
  | .qualificationComplete port => Sys2Proof.Machine.execQualificationComplete port s
  | .qualificationBlockEnd port => Sys2Proof.Machine.execQualificationBlockEnd port s
  | .classificationObservationEnd port => Sys2Proof.Machine.execClassificationObservationEnd port s
  | .classDecided port => Sys2Proof.Machine.execClassDecided port s
  | .rampingComplete usb port => Sys2Proof.Machine.execRampingComplete usb port s
  | .sourceOvervoltageStop port peak => Sys2Proof.Machine.execSourceOvervoltageStop port peak s
  | .sourceOvervoltageRelease port => Sys2Proof.Machine.execSourceOvervoltageRelease port s
  | .perturbObserveStep port => Sys2Proof.Machine.execPerturbObserveStep port s
  | .swellEvaluation port => Sys2Proof.Machine.execSwellEvaluation port s
  | .globalScan port => Sys2Proof.Machine.execGlobalScan port s
  | .scanEnd port => Sys2Proof.Machine.execScanEnd port s
  | .idleEntry port => Sys2Proof.Machine.execIdleEntry port s
  | .idleTrial port vPort => Sys2Proof.Machine.execIdleTrial port vPort s
  | .idleTrialResult port => Sys2Proof.Machine.execIdleTrialResult port s
  | .waveCycleEnd port => Sys2Proof.Machine.execWaveCycleEnd port s
  | .wavePause port => Sys2Proof.Machine.execWavePause port s
  | .waveResume port => Sys2Proof.Machine.execWaveResume port s
  | .swellProfileExpiry port => Sys2Proof.Machine.execSwellProfileExpiry port s
  | .transitionTimerExpiry ch => Sys2Proof.Machine.execTransitionTimerExpiry ch s
  | .annealingGrant ch => Sys2Proof.Machine.execAnnealingGrant ch s
  | .annealingDeferred ch => Sys2Proof.Machine.execAnnealingDeferred ch s
  | .annealingInjectionStart ch => Sys2Proof.Machine.execAnnealingInjectionStart ch s
  | .annealingInjectionEnd ch => Sys2Proof.Machine.execAnnealingInjectionEnd ch s
  | .annealingFitComplete ch responses => Sys2Proof.Machine.execAnnealingFitComplete ch responses s
  | .annealingVerificationEnd ch => Sys2Proof.Machine.execAnnealingVerificationEnd ch s
  | .batteryQualificationEnd port selfTest => Sys2Proof.Machine.execBatteryQualificationEnd port selfTest s
  | .qualificationRetry port => Sys2Proof.Machine.execQualificationRetry port s
  | .chargeTimerExpiry port timer => Sys2Proof.Machine.execChargeTimerExpiry port timer s
  | .pulseEnd port => Sys2Proof.Machine.execPulseEnd port s
  | .restEnd port => Sys2Proof.Machine.execRestEnd port s
  | .restDisturbed port => Sys2Proof.Machine.execRestDisturbed port s
  | .gladeFitComplete port => Sys2Proof.Machine.execGladeFitComplete port s
  | .probeRest port => Sys2Proof.Machine.execProbeRest port s
  | .chargePauseTimeout port => Sys2Proof.Machine.execChargePauseTimeout port s
  | .equaliseDue port => Sys2Proof.Machine.execEqualiseDue port s
  | .dischargeCutoff port => Sys2Proof.Machine.execDischargeCutoff port s
  | .dischargeRestore port => Sys2Proof.Machine.execDischargeRestore port s
  | .reserveRelease port => Sys2Proof.Machine.execReserveRelease port s
  | .primaryChargeCurrent port peak => Sys2Proof.Machine.execPrimaryChargeCurrent port peak s
  | .cellOvpTrip port segment => Sys2Proof.Machine.execCellOvpTrip port segment s
  | .ovpClearable port => Sys2Proof.Machine.execOvpClearable port s
  | .openTapTest port moved => Sys2Proof.Machine.execOpenTapTest port moved s
  | .tapReversed port segment => Sys2Proof.Machine.execTapReversed port segment s
  | .balanceSlot port => Sys2Proof.Machine.execBalanceSlot port s
  | .balanceWriteTimeout port => Sys2Proof.Machine.execBalanceWriteTimeout port s
  | .ccChange port view => Sys2Proof.Machine.execCcChange port view s
  | .typecDebounceExpiry port vbusSafe5V vconnInOk => Sys2Proof.Machine.execTypecDebounceExpiry port vbusSafe5V vconnInOk s
  | .drpToggle port => Sys2Proof.Machine.execDrpToggle port s
  | .tryTimerExpiry port partnerSeen vconnInOk => Sys2Proof.Machine.execTryTimerExpiry port partnerSeen vconnInOk s
  | .errorRecoveryEnd port => Sys2Proof.Machine.execErrorRecoveryEnd port s
  | .sinkWaitCapTimeout port => Sys2Proof.Machine.execSinkWaitCapTimeout port s
  | .pdMessageReceived port sopPrime id msg entry => Sys2Proof.Machine.execPdMessageReceived port sopPrime id msg entry s
  | .pdTransmit port receiving goodCrc => Sys2Proof.Machine.execPdTransmit port receiving goodCrc s
  | .pdRetry port goodCrc => Sys2Proof.Machine.execPdRetry port goodCrc s
  | .sourceCapabilities port objects epr => Sys2Proof.Machine.execSourceCapabilities port objects epr s
  | .sinkPsRdy port vbus => Sys2Proof.Machine.execSinkPsRdy port vbus s
  | .sourceRequest port rdo => Sys2Proof.Machine.execSourceRequest port rdo s
  | .sourceTransitionStart port => Sys2Proof.Machine.execSourceTransitionStart port s
  | .ppsRequestPeriod port => Sys2Proof.Machine.execPpsRequestPeriod port s
  | .eprKeepalive port => Sys2Proof.Machine.execEprKeepalive port s
  | .ppsTimeout port => Sys2Proof.Machine.execPpsTimeout port s
  | .senderResponseTimeout port => Sys2Proof.Machine.execSenderResponseTimeout port s
  | .prSwap port => Sys2Proof.Machine.execPrSwap port s
  | .prSwapInitiate port => Sys2Proof.Machine.execPrSwapInitiate port s
  | .drSwap port => Sys2Proof.Machine.execDrSwap port s
  | .vconnSwap port vconnInOk => Sys2Proof.Machine.execVconnSwap port vconnInOk s
  | .softResetReceived port sopPrime => Sys2Proof.Machine.execSoftResetReceived port sopPrime s
  | .discoverIdentity port towardsCable cable => Sys2Proof.Machine.execDiscoverIdentity port towardsCable cable s
  | .vdmReceived port structured => Sys2Proof.Machine.execVdmReceived port structured s
  | .hardResetReceived port sent partnerDrivesVbus => Sys2Proof.Machine.execHardResetReceived port sent partnerDrivesVbus s
  | .srcRecoverEnd port vbus vconnInOk => Sys2Proof.Machine.execSrcRecoverEnd port vbus vconnInOk s
  | .hardResetVbusTimeout port => Sys2Proof.Machine.execHardResetVbusTimeout port s
  | .vbusDischargeDone port => Sys2Proof.Machine.execVbusDischargeDone port s
  | .sinkOvervoltage port peak => Sys2Proof.Machine.execSinkOvervoltage port peak s
  | .vconnOvercurrent port => Sys2Proof.Machine.execVconnOvercurrent port s
  | .loadSoftStartComplete port vOut => Sys2Proof.Machine.execLoadSoftStartComplete port vOut s
  | .loadSoftStartTimeout port peak => Sys2Proof.Machine.execLoadSoftStartTimeout port peak s
  | .loadLimitingEntry port cur => Sys2Proof.Machine.execLoadLimitingEntry port cur s
  | .loadLimitingExit port cur => Sys2Proof.Machine.execLoadLimitingExit port cur s
  | .loadFaultTimerExpiry port peak => Sys2Proof.Machine.execLoadFaultTimerExpiry port peak s
  | .loadFastTrip port peak => Sys2Proof.Machine.execLoadFastTrip port peak s
  | .loadRetryOffTimeEnd port => Sys2Proof.Machine.execLoadRetryOffTimeEnd port s
  | .loadRetryResetInterval port => Sys2Proof.Machine.execLoadRetryResetInterval port s
  | .rideBelowLoadMinimum v => Sys2Proof.Machine.execRideBelowLoadMinimum v s
  | .rideAboveLoadRelease v => Sys2Proof.Machine.execRideAboveLoadRelease v s
  | .temperatureEvaluation => Sys2Proof.Machine.execTemperatureEvaluation s
  | .thermalComparatorTrip sensor => Sys2Proof.Machine.execThermalComparatorTrip sensor s
  | .shutdownRelease => Sys2Proof.Machine.execShutdownRelease s
  | .sensorRestored sensor => Sys2Proof.Machine.execSensorRestored sensor s
  | .telemetryPeriod => Sys2Proof.Machine.execTelemetryPeriod s
  | .snapshotSwapDeferred => Sys2Proof.Machine.execSnapshotSwapDeferred s
  | .resetNRelease => Sys2Proof.Machine.execResetNRelease s
  | .tSwapSourceStartExpiry port vbus => Sys2Proof.Machine.execTSwapSourceStartExpiry port vbus s
  | .tSinkTxExpiry port => Sys2Proof.Machine.execTSinkTxExpiry port s

end Sys2Proof.Machine
end

