-- ==== Sys2Proof/Machine/Step.lean ====
section
/-! DEFINITION. One step of the block: the command at the front of the queue, or a tick of the time base. -/

namespace Sys2Proof.Machine
open Sys2Proof

/-- An empty queue: 10 ns pass, and TB advances by one where it runs (R336; log 10). -/
def idle (s : State) : State := if s.tbRuns then { s with tb := s.tb + 1 } else s

/-- The front command executed on the state with the queue's rest. -/
def step (s : State) : Host.Outcome State Fault Refusal :=
  match s.pending with
  | [] => .next (idle s)
  | c :: rest => exec c { s with pending := rest }

/-- The state with the command a word spells at the front of its queue: the table gives no row bits, so a word spells
none and the state is unchanged (log 4). -/
def State.withFetchWord (s : State) (nbits w : Nat) : State :=
  match decodeTableWord nbits w with
  | some c => { s with pending := c :: s.pending }
  | none => s

end Sys2Proof.Machine
end

