-- ==== Sys2Proof/Safety.lean ====
section
/-! DEFINITION. What the statements speak of: a command that completes, a mailbox command that waits to be taken and its
answer, the canonical form of the machine's buffers, and what one state keeps of another. -/

namespace Sys2Proof.Safety
open Sys2Proof Sys2Proof.Machine

/-! ### Completion -/

/-- The command answers a next state, and P holds of it. -/
def Completes (c : Instr) (s : State) (P : State → Prop) : Prop := ∃ t, exec c s = .next t ∧ P t

/-! ### Mailbox commands (R391, R394) -/

/-- The bytes of a command as a host writes them into a Q0 slot (table "Mailbox header"). -/
def commandBytes (tag flags : Byte) (op : Half) (body : List Byte) : List Byte :=
  let h := [tag, flags] ++ le16 op ++ le 2 (body.length : Nat)
  pad 256 (h ++ le16 (crc16 (h ++ body)) ++ body)

/-- The oldest entry of Q0, at index idx, is the command whose bytes are bs; Anvil can take it, and it passes checks 1 to 4
of R394: its length and CRC fit, no reserved flag is set, and its tag is free. No injection is armed, and the device is not
in Understory standby. -/
def Offered (s : State) (bs : List Byte) (idx : Half) : Prop :=
  mayTake s = true ∧ headEntry 0 0 s = some ⟨bs, true⟩ ∧ indexOf s.ring[0] 0 = some idx ∧ s.fc.inject = [] ∧
  s.dev ≠ .standby ∧ (cmdOf bs idx).len ≤ 248 ∧ crcFitsCmd bs (cmdOf bs idx) = true ∧
  ((cmdOf bs idx).flags = 0 ∨ (cmdOf bs idx).flags = 1) ∧ (tagsInUse s).contains (cmdOf bs idx).tag = false

/-- Offered, with an opcode and without DRY_RUN. -/
def Waits (s : State) (bs : List Byte) (idx : Half) (op : Half) : Prop :=
  Offered s bs idx ∧ (cmdOf bs idx).flags = 0 ∧ (cmdOf bs idx).op = op

/-- The command completes: its response, with a status and its data, is the newest entry of Q1, the command has left Q0,
and P holds of the state after it. -/
def Answered (c : Instr) (s : State) (bs : List Byte) (idx : Half) (st : Nat) (data : List Byte) (P : State → Prop) : Prop :=
  Completes c s fun t =>
    t.ring[1].entries = s.ring[1].entries ++ [⟨responseBytes (cmdOf bs idx) st data, true⟩] ∧ t.ring[1].p = s.ring[1].p + 1 ∧
    indexOf t.ring[0] 0 = some (idx + 1) ∧ P t

/-- The opcode of a command that Anvil takes from Q0 (table "Command index"). -/
def opcodeOf : Instr → Option Half
  | .echo => some 0x0000 | .deviceInfo => some 0x0001 | .reset => some 0x0002 | .shipMode => some 0x0003
  | .counterClear => some 0x0004 | .sbusTransfer _ _ => some 0x0005
  | .paramSet => some 0x0100 | .paramGet => some 0x0101 | .paramRevert => some 0x0102 | .imageStage => some 0x0103
  | .imageTrial => some 0x0104 | .imageBurn => some 0x0105 | .imageStatus => some 0x0106 | .cBurn => some 0x0107
  | .lockBurn => some 0x0108 | .channelControl => some 0x0200 | .anneal => some 0x0201 | .loopRead => some 0x0202
  | .sourceRead => some 0x0300 | .batteryRead => some 0x0400 | .chargerStatus => some 0x0401 | .chargerClear => some 0x0402
  | .equalise => some 0x0403 | .cellRead => some 0x0500 | .ovpClear => some 0x0501 | .usbRead => some 0x0600
  | .loadSet => some 0x0700 | .loadClear => some 0x0701 | .loadRead => some 0x0702 | .assaySample _ _ => some 0x0800
  | .assayStatus => some 0x0801 | .telemetryNow => some 0x0802 | .thermalRead => some 0x0900 | .faultList => some 0x0A00
  | .faultClear => some 0x0A01 | .attest => some 0x0B00 | .patchStage => some 0x0B01 | .patchApply => some 0x0B02
  | .keyRevoke => some 0x0B03 | .faultInject => some 0x0C00 | .testDac _ _ => some 0x0C01
  | _ => none

/-- Counter n of a unit (table "Counter numbers"); the balancing hours (battery ports, 11) are no 16-bit counter. -/
def counterAt (k i n : Nat) (s : State) : Cnt :=
  match k with
  | 0 => [s.ride.ovCnt, s.tap.trips, s.therm.shutCnt, s.therm.failCnt].getD n {}
  | 1 => let x := s.src[fin8 i]; [x.cWithdraw, x.cQualFail, x.cUndet, x.cOv, x.cScan, x.cSwell].getD n {}
  | 2 => let x := s.usb[fin4 i]
         [x.cAttach, x.cHrSent, x.cHrRecv, x.cSoft, x.cTxFail, x.cSwap, x.cShed, x.cOv].getD n {}
  | 3 => let x := s.bat[fin4 i]
         [x.cTerm, x.cDormant, x.cCut, x.cDisturb, x.cFitFail, x.cQualFail, {}, {}, x.cTrips, x.cTap, x.cProbe].getD n {}
  | 4 => let x := s.load[fin32 i]; [x.cFast, x.cLimit, x.cSoft, x.cLatch, x.cShed].getD n {}
  | 5 => s.chan[fin16 i].hicCnt
  | 9 => s.group[fin4 i].entries[(Fin.ofNat 64 n)].miss
  | 12 => s.ring[fin16 i].cnt
  | _ => if i = 0 then (if n = 0 then s.host.spiErr else s.host.spiProto) else if n = 0 then s.host.hbusErr else s.host.hbusProto

/-! ### What a state keeps of another -/

/-- Everything but the rings, the pending causes and the alert latch, and the mailbox's note of who committed the
doorbells: what taking and answering a command without an effect of its own may not change. -/
def SameButRings (s t : State) : Prop :=
  { t with ring := s.ring, host := { t.host with intPend := s.host.intPend, alertArmed := s.host.alertArmed },
           mbox := { t.mbox with q0By := s.mbox.q0By } } = s

/-- The queue, the power and reset state, and every unit but the rings, the collector, Warden, the host window and the
mailbox: what a fault report or an event may not change. -/
def UnitsKept (s t : State) : Prop :=
  { t with ring := s.ring, fc := s.fc, warden := s.warden, host := s.host, mbox := s.mbox } = s

/-- The one event that the command raises, where the mailbox is open, no event was lost and Q2 has the credit: its record,
with the next sequence number and the present TB, is the newest of Q2 (R402). -/
def Tells (s t : State) (code : Half) (data : List Byte) : Prop :=
  let bs := eventBytes s.warden.evSeq code false s.tb data
  s.mbox.ready = true → s.mbox.evLost = 0 → recordEntries 2 bs ≤ credit 2 s.ring[2] →
    t.ring[2].entries = s.ring[2].entries ++ cutEntries 32 bs (recordEntries 2 bs) ∧ t.warden.evSeq = s.warden.evSeq + 1

/-- A report of a checker that watches no access took the capture, where it was free (R488, R489). -/
def Captures (s t : State) (checker : Byte) (kind idx cause : Nat) : Prop :=
  s.fc.feValid = false → t.fc.feValid = true ∧ t.fc.feChecker = checker ∧ t.fc.feTb = s.tb ∧
    ∃ r, t.fc.capture = some r ∧ r.checker = checker ∧ r.unitKind = byte kind ∧ r.unitIdx = byte idx ∧
      r.cause = BitVec.ofNat 16 cause ∧ r.master = 0 ∧ r.access = .none

/-- The one message that the command sends on a USB port, where nothing waits before Q15 and it has credit: its entry, of the
port, kind message and the message's type in the header, is the newest of Q15 (R245). -/
def SendsMsg (s t : State) (p : Fin 4) (typ : Nat) : Prop :=
  s.ring[15].stalled = [] → 1 ≤ credit 15 s.ring[15] →
    ∃ e, t.ring[15].entries = s.ring[15].entries ++ [⟨e, true⟩] ∧ byteAt e 0 = byte p.val ∧ byteAt e 1 = 0 ∧
      ofLe (slice e 8 2) % 32 = typ

/-- Every addressed buffer of the machine has its canonical form. -/
def BuffersWf (s : State) : Prop :=
  Memory.wf s.otp.mem = true ∧ Memory.wf s.otp.buffer = true ∧ Memory.wf s.mbox.q0mem = true ∧
  Memory.wf s.mbox.stage = true ∧ Memory.wf s.mbox.patch = true ∧ Memory.wf s.snap.front = true ∧
  (∀ m, s.snap.due = some m → Memory.wf m = true)

/-- Every bit of the one-time memory that is 1 in s is 1 in t. -/
def FusesKept (s t : State) : Prop := ∀ a : Nat, memRead s.otp.mem a &&& ~~~(memRead t.otp.mem a) = 0

end Sys2Proof.Safety
end

