-- ==== Sys2Proof/Certificates/Slice0/Obligations.lean ====
section
/-! DEFINITION. The statements for the provers, in the order of the spec's chapters. -/

open Sys2Proof Sys2Proof.Machine Sys2Proof.Safety

/-- A step runs the command at the front of the queue. For every command c, rest of the queue and state, the step of the state
with c in front is exec of c on the state with the queue's rest. (01_architecture.md) -/
def Obligations.StepRunsFront : Prop :=
  ∀ (c : Instr) (rest : List Instr) (s : State), step { s with pending := c :: rest } = exec c { s with pending := rest }

/-- On an empty queue the time base counts, and nothing else changes (the model's choice, log 10). With no command waiting a
step is one count of the time base of R336 where it runs, and changes no other field. (13_engines_rings_clocks.md) -/
def Obligations.IdleTicks : Prop :=
  ∀ s : State, s.pending = [] →
    (s.tbRuns = true → step s = .next { s with tb := s.tb + 1 }) ∧ (s.tbRuns = false → step s = .next s)

/-- Every command completes, and none changes the queue of waiting commands. Every command answers a next state from every
state, and the queue in it is the queue before: only a step takes from it. (01_architecture.md, 95_what_each_step_holds.md) -/
def Obligations.EveryCommandCompletes : Prop :=
  ∀ (c : Instr) (s : State), Completes c s fun t => t.pending = s.pending

/-- A command written by the host is read back by Anvil field by field, with its CRC good. For every tag, flags, opcode and body
of at most 248 bytes, the 256 bytes of the table "Mailbox header" decode to the same tag, flags, opcode, length and body, and
their CRC fits. (16_mailbox_protocol.md) -/
def Obligations.CommandCodec : Prop :=
  ∀ (tag flags : Byte) (op : Half) (body : List Byte) (idx : Half), body.length ≤ 248 →
    (commandBytes tag flags op body).length = 256 ∧
    crcFitsCmd (commandBytes tag flags op body) (cmdOf (commandBytes tag flags op body) idx) = true ∧
    (cmdOf (commandBytes tag flags op body) idx).tag = tag ∧ (cmdOf (commandBytes tag flags op body) idx).flags = flags ∧
    (cmdOf (commandBytes tag flags op body) idx).op = op ∧ (cmdOf (commandBytes tag flags op body) idx).len = body.length ∧
    (cmdOf (commandBytes tag flags op body) idx).body = body ∧ (cmdOf (commandBytes tag flags op body) idx).idx = idx

/-- A response echoes tag and opcode, carries its status and the command's Q0 index, and data only with OK or STARTED. Of the
256 bytes of a response: byte 0 is the tag, byte 1 bit 7 with DRY_RUN echoed in bit 0, then the opcode, the length, the CRC over
bytes 0 to 5 and the payload, the status, the Q0 index, and the data of an OK or STARTED response. (16_mailbox_protocol.md) -/
def Obligations.ResponseLayout : Prop :=
  ∀ (c : Cmd) (st : Nat) (data : List Byte), st < 65536 → data.length ≤ 244 →
    (responseBytes c st data).length = 256 ∧
    slice (responseBytes c st data) 0 2 = [c.tag, if c.dry then 0x81 else 0x80] ∧
    slice (responseBytes c st data) 2 2 = le16 c.op ∧
    ofLe (slice (responseBytes c st data) 4 2) = (if st = 0 ∨ st = 1 then 4 + data.length else 4) ∧
    ofLe (slice (responseBytes c st data) 8 2) = st ∧
    slice (responseBytes c st data) 10 2 = le16 c.idx ∧
    (st = 0 ∨ st = 1 → slice (responseBytes c st data) 12 data.length = data) ∧
    slice (responseBytes c st data) 6 2 =
      le16 (crc16 (slice (responseBytes c st data) 0 6 ++
        slice (responseBytes c st data) 8 (ofLe (slice (responseBytes c st data) 4 2))))

/-- The first failing check of checks 1 to 5 gives the status, and nothing is executed. A command of any row's opcode that Anvil
can take is answered BAD_LENGTH, BAD_CRC, BAD_FLAGS, DUP_TAG or UNKNOWN_OPCODE at the first of those checks that fails, without
data; it leaves the rings, the interrupt causes and (checks 1 and 2) the collector changed alone. (16_mailbox_protocol.md,
19_faults.md) -/
def Obligations.ChecksInOrder : Prop :=
  ∀ (c : Instr) (op : Half) (s : State) (bs : List Byte) (idx : Half), opcodeOf c = some op →
    mayTake s = true → headEntry 0 0 s = some ⟨bs, true⟩ → indexOf s.ring[0] 0 = some idx → s.fc.inject = [] →
    ((cmdOf bs idx).op = op ∨ opcodes.contains (cmdOf bs idx).op.toNat = false) →
    (248 < (cmdOf bs idx).len → Answered c s bs idx 0x0011 [] (UnitsKept s)) ∧
    ((cmdOf bs idx).len ≤ 248 → crcFitsCmd bs (cmdOf bs idx) = false → Answered c s bs idx 0x0010 [] (UnitsKept s)) ∧
    ((cmdOf bs idx).len ≤ 248 → crcFitsCmd bs (cmdOf bs idx) = true →
      ((cmdOf bs idx).flags &&& 0xFE ≠ 0 → Answered c s bs idx 0x0012 [] (SameButRings s)) ∧
      ((cmdOf bs idx).flags &&& 0xFE = 0 →
        ((tagsInUse s).contains (cmdOf bs idx).tag = true → Answered c s bs idx 0x0014 [] (SameButRings s)) ∧
        ((tagsInUse s).contains (cmdOf bs idx).tag = false → opcodes.contains (cmdOf bs idx).op.toNat = false →
          Answered c s bs idx 0x0013 [] (SameButRings s))))

/-- Under DRY_RUN a command is answered and has no other effect. A command of any row, offered with DRY_RUN, gets a response
with a status other than STARTED, and nothing but the rings and the interrupt causes changes. (16_mailbox_protocol.md) -/
def Obligations.DryRunHasNoEffect : Prop :=
  ∀ (c : Instr) (op : Half) (s : State) (bs : List Byte) (idx : Half), opcodeOf c = some op → Offered s bs idx →
    (cmdOf bs idx).flags = 1 → (cmdOf bs idx).op = op → ∃ st d, st ≠ 1 ∧ Answered c s bs idx st d (SameButRings s)

/-- ECHO returns its bytes, DEVICE_INFO the identity words; RESET and SHIP_MODE note what is due 10 ms later. Each completes
with status OK on its allowed payload, from every state in which it is offered; RESET kind 0 notes a device reset, kind 1 an
Anvil restart, SHIP_MODE the entry with its FLAGS, and nothing else but the rings and interrupt causes changes.
(17_command_reference.md) -/
def Obligations.SystemCommandsAnswered : Prop :=
  ∀ (s : State) (bs : List Byte) (idx : Half),
    (Waits s bs idx 0x0000 → (cmdOf bs idx).len ≤ 244 → Answered .echo s bs idx 0 (cmdOf bs idx).body (SameButRings s)) ∧
    (Waits s bs idx 0x0001 → (cmdOf bs idx).len = 0 → ∃ d, Answered .deviceInfo s bs idx 0 d (SameButRings s) ∧
      d.length = 32 ∧ slice d 0 4 = le32 0xBAE07148 ∧ slice d 8 8 = le64 Config.dieId ∧ slice d 16 8 = le64 s.tb ∧
      slice d 25 2 = [s.aon.cause, byte s.par.inForce.val]) ∧
    (Waits s bs idx 0x0002 → (cmdOf bs idx).len = 3 → (cmdOf bs idx).confirmed = true →
      ((cmdOf bs idx).u8 2 = 0 →
        Answered .reset s bs idx 0 [] (SameButRings { s with mbox := { s.mbox with resetDue := true } })) ∧
      ((cmdOf bs idx).u8 2 = 1 →
        Answered .reset s bs idx 0 [] (SameButRings { s with mbox := { s.mbox with restartDue := true } })) ∧
      (1 < (cmdOf bs idx).u8 2 → Answered .reset s bs idx 0x0020 [] (SameButRings s))) ∧
    (Waits s bs idx 0x0003 → (cmdOf bs idx).len = 3 → (cmdOf bs idx).confirmed = true → s.otp.busy = none →
      ((cmdOf bs idx).u8 2 = 1 ∨ (cmdOf bs idx).u8 2 = 0 ∧ reedEn s = true →
        Answered .shipMode s bs idx 0 []
          (SameButRings { s with mbox := { s.mbox with shipDue := some (byte ((cmdOf bs idx).u8 2)) } })) ∧
      ((cmdOf bs idx).u8 2 = 0 → reedEn s = false → Answered .shipMode s bs idx 0x0100 [] (SameButRings s)))

/-- COUNTER_CLEAR zeroes each selected counter with its flag, and no other. For every unit kind and index that has counters and
is enabled, and every mask of its counters, the command answers OK; each counter with its bit set is zero and unsaturated after
it, each other counter of the unit is as before; retry counters stay. (17_command_reference.md) -/
def Obligations.CounterClear : Prop :=
  ∀ (s : State) (bs : List Byte) (idx : Half), Waits s bs idx 0x0004 → (cmdOf bs idx).len = 10 →
    (counterNumbers ((cmdOf bs idx).u8 0)).isEmpty = false → portCheck s ((cmdOf bs idx).u8 0) ((cmdOf bs idx).u8 1) = none →
    (maskBits (ofLe (slice (cmdOf bs idx).body 2 8))).all (counterNumbers ((cmdOf bs idx).u8 0)).contains = true →
    Answered .counterClear s bs idx 0 [] fun t =>
      (∀ n ∈ counterNumbers ((cmdOf bs idx).u8 0),
        counterAt ((cmdOf bs idx).u8 0) ((cmdOf bs idx).u8 1) n t =
          if n ∈ maskBits (ofLe (slice (cmdOf bs idx).body 2 8)) then {}
          else counterAt ((cmdOf bs idx).u8 0) ((cmdOf bs idx).u8 1) n s) ∧
      (∀ c : Fin 16, t.chan[c].retry = s.chan[c].retry) ∧ (∀ p : Fin 32, t.load[p].retry = s.load[p].retry)

/-- SBUS_TRANSFER reports its result, bytes and attempts; a recovery frees the bus or leaves it stuck. A transfer in range
answers OK with result 0 and its read bytes where the target acknowledges, 1 and 2 where an address or a data byte is not
acknowledged, 3 where arbitration is lost in every attempt, 4 with the bytes so far where SCL stays low, 5 where the bus stays
stuck, 6 where it stays busy; the timing in force at its start is held. A clock-low recovery that frees the bus clears the stuck
mark, one that does not sets it and is reported; while SCL is held low, or within 1 s of one that failed, none is made.
(17_command_reference.md, 14_two_wire_and_spi.md) -/
def Obligations.SbusCommands : Prop :=
  (∀ (s : State) (bs : List Byte) (idx : Half) (lost wc rc : Nat) (o : SbusEnd) (b : Sbus), Waits s bs idx 0x0005 →
    wc = (cmdOf bs idx).u8 1 → rc = (cmdOf bs idx).u8 2 → (cmdOf bs idx).u8 0 < 128 → wc ≤ 32 → rc ≤ 32 → 0 < wc + rc →
    (cmdOf bs idx).u8 3 = 0 → (cmdOf bs idx).len = 4 + wc → sbusTooLong s wc rc = false →
    b = { s.sbus with times := some (sbusTimes s), sent := sbusSent (byte ((cmdOf bs idx).u8 0)) (slice (cmdOf bs idx).body 4 wc) rc o } →
    ((param s 0x39).toNat ≤ lost →
      Answered (.sbusTransfer lost o) s bs idx 0 [3, 0, 0, byte (param s 0x39).toNat]
        (SameButRings { s with sbus := { b with sent := [] } })) ∧
    (lost < (param s 0x39).toNat →
      (∀ r, o = .done r → Answered (.sbusTransfer lost o) s bs idx 0 ([0, byte wc, byte rc, byte (lost + 1)] ++ slice r 0 rc)
        (SameButRings { s with sbus := { b with stuck := false, failTb := none } })) ∧
      (∀ second, o = .nackAddress second → Answered (.sbusTransfer lost o) s bs idx 0
        [1, byte (if second then wc else 0), 0, byte (lost + 1)]
        (SameButRings { s with sbus := { b with stuck := false, failTb := none } })) ∧
      (∀ k, o = .nackData k → Answered (.sbusTransfer lost o) s bs idx 0
        [2, byte (min k wc), 0, byte (lost + 1)] (SameButRings { s with sbus := { b with stuck := false, failTb := none } })) ∧
      (∀ k, o = .alwaysLost k → Answered (.sbusTransfer lost o) s bs idx 0
        [3, byte (min k wc), 0, byte (max 1 lost)] (SameButRings { s with sbus := { b with sent := [] } })) ∧
      (∀ k r, o = .clockLow k r → Answered (.sbusTransfer lost o) s bs idx 0
        ([4, byte (min k wc), byte (r.take rc).length, byte (lost + 1)] ++ r.take rc) (SameButRings { s with sbus := b })) ∧
      (o = .busy → Answered (.sbusTransfer lost o) s bs idx 0 [6, 0, 0, byte lost] (SameButRings { s with sbus := b })) ∧
      (o = .stuck → Answered (.sbusTransfer lost o) s bs idx 0 [5, 0, 0, byte lost] fun t => t.sbus.stuck = true))) ∧
  (∀ s : State, s.mbox.ready = true → mayRecover s = true →
    (∀ n, n ≤ 9 → exec (.sbusClockLowTimeout true (some n)) s =
      .next { s with sbus := { s.sbus with stuck := false, failTb := none } }) ∧
    (Completes (.sbusClockLowTimeout true none) s fun t => t.sbus.stuck = true ∧ t.sbus.failTb = some s.tb ∧ Captures s t 0x3D 0 0 0)) ∧
  (∀ s : State, ∀ p, exec (.sbusClockLowTimeout false p) s = .next s ∧
    (mayRecover s = false → exec (.sbusClockLowTimeout true p) s = .next s))

/-- PARAM_SET applies all its records to the host layer, PARAM_GET reads the winning layer, PARAM_REVERT removes the host layer
of its keys. A set whose records and dependencies pass is applied as a whole: for every key the later record of that key stands
in the host layer, every other key of it is as before; a record of an undefined key is refused with nothing applied. A read
returns for each key its record and ORIGIN, and refuses a key of a disabled port. A revert whose result passes removes the
listed keys, or all for 0xFFFF, from the host layer. (17_command_reference.md, 16_mailbox_protocol.md) -/
def Obligations.ParamCommands : Prop :=
  ∀ (s : State) (bs : List Byte) (idx : Half), s.dev ≠ .deviceStop →
    (∀ l, Waits s bs idx 0x0100 → 0 < (cmdOf bs idx).len → setRecs (cmdOf bs idx) = some l →
      ((∀ r ∈ l, recordStatus s r = none) → formationBars s (withHost s (applyRecs s l)) = false →
        setStatus s (applyRecs s l) (l.map (·.key)) = none →
        Answered .paramSet s bs idx 0 [byte l.length] fun t =>
          (∀ k : Half, lookup k t.par.host =
            match l.reverse.find? (fun r => r.key = k) with
            | some r => some (recValue s r)
            | none => lookup k s.par.host) ∧ t.par.slot = s.par.slot ∧ t.par.trial = s.par.trial) ∧
      (∀ r, l.head? = some r → (keyRow r.key).isNone = true → Answered .paramSet s bs idx 0x0028 [] (SameButRings s))) ∧
    (Waits s bs idx 0x0101 → keysLen (cmdOf bs idx) = true → (∀ k ∈ keysOf (cmdOf bs idx), (keyRow k).isSome = true) →
      (∃ k ∈ keysOf (cmdOf bs idx), keyPortDisabled s k = true) → Answered .paramGet s bs idx 0x0022 [] (SameButRings s)) ∧
    (Waits s bs idx 0x0101 → keysLen (cmdOf bs idx) = true →
      (∀ k ∈ keysOf (cmdOf bs idx), (keyRow k).isSome = true ∧ keyPortDisabled s k = false) →
      ((keysOf (cmdOf bs idx)).flatMap (keyRecord s)).length ≤ 244 →
      Answered .paramGet s bs idx 0
        ((keysOf (cmdOf bs idx)).flatMap fun k =>
          le16 k ++ [byte (keySize s k)] ++ le (keySize s k) (param s k.toNat) ++ [byte (origin s k)]) (SameButRings s)) ∧
    (Waits s bs idx 0x0102 → keysLen (cmdOf bs idx) = true →
      (keysOf (cmdOf bs idx) = [0xFFFF] ∨ ∀ k ∈ keysOf (cmdOf bs idx), (keyRow k).isSome = true ∧ keyPortDisabled s k = false) →
      ∀ h, h = s.par.host.filter (fun e => !(keysOf (cmdOf bs idx) = [0xFFFF] || (keysOf (cmdOf bs idx)).contains e.1)) →
      formationBars s (withHost s h) = false →
      setStatus s h (if keysOf (cmdOf bs idx) = [0xFFFF] then s.par.host.map (·.1) else keysOf (cmdOf bs idx)) = none →
      Answered .paramRevert s bs idx 0 [] fun t => t.par.host = h ∧ t.par.slot = s.par.slot ∧ t.par.trial = s.par.trial)

/-- IMAGE_STAGE and PATCH_STAGE write their bytes at the offset, a write at offset 0 emptying the buffer first. In range, the
data bytes read back at their offset, every other address of the buffer reads as before (0 after a write at offset 0), the
staged length is the highest byte written plus one, and the response returns it; with a patch applied, PATCH_STAGE at offset 0
is refused with WRONG_STATE. (17_command_reference.md) -/
def Obligations.StagingCommands : Prop :=
  (∀ (s : State) (bs : List Byte) (idx : Half), Waits s bs idx 0x0103 → Memory.wf s.mbox.stage = true →
    6 ≤ (cmdOf bs idx).len → (cmdOf bs idx).len ≤ 242 → ((cmdOf bs idx).len - 2) % 4 = 0 → imageBurns s = false →
    (cmdOf bs idx).u16 0 % 4 = 0 → (cmdOf bs idx).u16 0 + ((cmdOf bs idx).len - 2) ≤ 2048 →
    ∃ n, Answered .imageStage s bs idx 0 (le 2 (n : Nat)) (fun t =>
        t.mbox.stageLen = n ∧
        memReadN t.mbox.stage ((cmdOf bs idx).u16 0) ((cmdOf bs idx).len - 2) = (cmdOf bs idx).body.drop 2 ∧
        (∀ a, a < (cmdOf bs idx).u16 0 ∨ (cmdOf bs idx).u16 0 + ((cmdOf bs idx).len - 2) ≤ a →
          memRead t.mbox.stage a = if (cmdOf bs idx).u16 0 = 0 then 0 else memRead s.mbox.stage a) ∧
        SameButRings { s with mbox := { s.mbox with stage := t.mbox.stage, stageLen := n } } t) ∧
      n = if (cmdOf bs idx).u16 0 = 0 then (cmdOf bs idx).len - 2
          else max s.mbox.stageLen ((cmdOf bs idx).u16 0 + ((cmdOf bs idx).len - 2))) ∧
  (∀ (s : State) (bs : List Byte) (idx : Half), Waits s bs idx 0x0B01 → Memory.wf s.mbox.patch = true →
    8 ≤ (cmdOf bs idx).len → (cmdOf bs idx).len ≤ 244 → ((cmdOf bs idx).len - 4) % 4 = 0 →
    (cmdOf bs idx).u32 0 % 4 = 0 → (cmdOf bs idx).u32 0 + ((cmdOf bs idx).len - 4) ≤ 65536 →
    ((cmdOf bs idx).u32 0 = 0 → s.mbox.patched.isSome = true → Answered .patchStage s bs idx 0x0024 [] (SameButRings s)) ∧
    ((cmdOf bs idx).u32 0 ≠ 0 ∨ s.mbox.patched = none →
      ∃ n, Answered .patchStage s bs idx 0 (le 4 (n : Nat)) (fun t =>
          t.mbox.patchLen = n ∧
          memReadN t.mbox.patch ((cmdOf bs idx).u32 0) ((cmdOf bs idx).len - 4) = (cmdOf bs idx).body.drop 4 ∧
          (∀ a, a < (cmdOf bs idx).u32 0 ∨ (cmdOf bs idx).u32 0 + ((cmdOf bs idx).len - 4) ≤ a →
            memRead t.mbox.patch a = if (cmdOf bs idx).u32 0 = 0 then 0 else memRead s.mbox.patch a) ∧
          SameButRings { s with mbox := { s.mbox with patch := t.mbox.patch, patchLen := n } } t) ∧
        n = if (cmdOf bs idx).u32 0 = 0 then (cmdOf bs idx).len - 4
            else max s.mbox.patchLen ((cmdOf bs idx).u32 0 + ((cmdOf bs idx).len - 4))))

/-- IMAGE_TRIAL puts the staged image in place of the slot layer and ends it; IMAGE_STATUS reads; PATCH_APPLY notes the restart
with the patch. Action 0 with a valid staged image answers the entries applied and ignored and sets the trial layer, the host
layer staying above; without one it answers IMAGE_INVALID. Action 1 removes the trial, or answers WRONG_STATE where none is
active. IMAGE_STATUS returns its 16 bytes. PATCH_APPLY with a valid signed patch answers the key index and makes the restart
due. (17_command_reference.md, 18_otp_image_hallmark.md) -/
def Obligations.ImageAndPatchInForce : Prop :=
  ∀ (s : State) (bs : List Byte) (idx : Half),
    (Waits s bs idx 0x0104 → (cmdOf bs idx).len = 1 → s.dev ≠ .deviceStop →
      ((cmdOf bs idx).u8 0 = 0 →
        (stagedForm s = false → Answered .imageTrial s bs idx 0x0101 [] (SameButRings s)) ∧
        (stagedForm s = true → signatureOk s (staged s) = false → Answered .imageTrial s bs idx 0x0031 [] (SameButRings s)) ∧
        (stagedForm s = true → signatureOk s (staged s) = true →
          Answered .imageTrial s bs idx 0
            (le 2 ((trialLayer s).2.1 : Nat) ++ le 2 ((trialLayer s).2.2.length : Nat)) fun t =>
              t.par.trial = some (trialLayer s).1 ∧ t.par.host = s.par.host ∧ t.par.slot = s.par.slot)) ∧
      ((cmdOf bs idx).u8 0 = 1 →
        (s.par.trial = none → Answered .imageTrial s bs idx 0x0024 [] (SameButRings s)) ∧
        (s.par.trial.isSome = true → formationBars s (slotLayerNow (withTrial s none)) = false →
          Answered .imageTrial s bs idx 0 [0, 0, 0, 0] fun t =>
            t.par.trial = none ∧ t.par.host = s.par.host ∧ t.par.slot = (slotLayerNow (withTrial s none)).par.slot))) ∧
    (Waits s bs idx 0x0106 → (cmdOf bs idx).len = 0 → ∃ d, Answered .imageStatus s bs idx 0 d (SameButRings s) ∧
      d.length = 16 ∧ slice d 0 1 = [byte s.par.inForce.val] ∧ slice d 2 2 = le 2 (consumedMask s).toNat ∧
      slice d 4 2 = le 2 s.otp.validSlots.toNat ∧ slice d 6 2 = le 2 s.otp.slotMarg.toNat ∧
      slice d 8 2 = le 2 (s.mbox.stageLen : Nat) ∧ slice d 10 2 = le16 s.par.ignored ∧ slice d 12 4 = le32 s.par.ident) ∧
    (Waits s bs idx 0x0B02 → (cmdOf bs idx).len = 2 → (cmdOf bs idx).confirmed = true → s.dev ≠ .deviceStop → s.otp.busy = none →
      (patchForm (patchBytes s) = false → Answered .patchApply s bs idx 0x0101 [] (SameButRings s)) ∧
      (patchForm (patchBytes s) = true → patchSigned s (patchBytes s) = false →
        Answered .patchApply s bs idx 0x0031 [] (SameButRings s)) ∧
      (patchForm (patchBytes s) = true → patchSigned s (patchBytes s) = true →
        Answered .patchApply s bs idx 0 [byte (patchKeyIdx (patchBytes s))]
          (SameButRings { s with mbox := { s.mbox with patchDue := true, restartDue := true } })))

/-- IMAGE_BURN, C_BURN, LOCK_BURN and KEY_REVOKE answer STARTED and make the controller busy; BUSY while one runs. Where their
checks pass and no burn runs, each answers STARTED, the programming controller runs the long command with the command's tag and
Q0 index, and no fuse has changed yet; while a burn runs each answers BUSY. (17_command_reference.md, 18_otp_image_hallmark.md)
-/
def Obligations.BurnCommandsStart : Prop :=
  ∀ (s : State) (bs : List Byte) (idx : Half), s.dev ≠ .deviceStop →
    (∀ n, Waits s bs idx 0x0105 → (cmdOf bs idx).len = 2 → (cmdOf bs idx).confirmed = true → stagedForm s = true →
      stagedSecure s = true → enrolBars s = false → nextSlot s = some n →
      (s.otp.busy.isSome = true → Answered .imageBurn s bs idx 0x0030 [] (SameButRings s)) ∧
      (s.otp.busy = none → burnAllowed s = false → Answered .imageBurn s bs idx 0x0024 [] (SameButRings s)) ∧
      (s.otp.busy = none → burnAllowed s = true → Answered .imageBurn s bs idx 1 [byte n] fun t =>
        t.otp.busy = some ⟨.image, (cmdOf bs idx).tag, idx, 0, 0⟩ ∧ t.otp.slot.val = n ∧ t.otp.mem = s.otp.mem ∧
        t.mbox.long = s.mbox.long ++ [⟨.image, (cmdOf bs idx).tag, idx, 0, 0⟩])) ∧
    (Waits s bs idx 0x0107 → (cmdOf bs idx).len = 3 → (cmdOf bs idx).confirmed = true → lockBlown s 1 = false →
      s.wires.debugLock = false →
      (s.otp.busy.isSome = true → Answered .cBurn s bs idx 0x0030 [] (SameButRings s)) ∧
      (s.otp.busy = none → fuseConflict s ((cmdOf bs idx).u8 2) = true → Answered .cBurn s bs idx 0x0103 [] (SameButRings s)) ∧
      (s.otp.busy = none → fuseConflict s ((cmdOf bs idx).u8 2) = false → Answered .cBurn s bs idx 1 [] fun t =>
        t.otp.busy = some ⟨.cRegion, (cmdOf bs idx).tag, idx, byte ((cmdOf bs idx).u8 2), 0⟩ ∧ t.otp.mem = s.otp.mem ∧
        t.mbox.long = s.mbox.long ++ [⟨.cRegion, (cmdOf bs idx).tag, idx, byte ((cmdOf bs idx).u8 2), 0⟩])) ∧
    (Waits s bs idx 0x0108 → (cmdOf bs idx).len = 4 → (cmdOf bs idx).confirmed = true → (cmdOf bs idx).u8 2 < 32 →
      (cmdOf bs idx).u8 3 < 32 →
      (s.otp.busy.isSome = true → Answered .lockBurn s bs idx 0x0030 [] (SameButRings s)) ∧
      (s.otp.busy = none → Answered .lockBurn s bs idx 1 [] fun t =>
        t.otp.busy = some ⟨.lock, (cmdOf bs idx).tag, idx, byte ((cmdOf bs idx).u8 2), byte ((cmdOf bs idx).u8 3)⟩ ∧
        t.otp.mem = s.otp.mem)) ∧
    (Waits s bs idx 0x0B03 → (cmdOf bs idx).len = 68 → (cmdOf bs idx).confirmed = true → (cmdOf bs idx).u8 2 < 4 →
      (cmdOf bs idx).u8 3 = 0 → keyRevoked s ((cmdOf bs idx).u8 2) = false →
      (s.wires.secure = false ∨ ∃ j < 4, j ≠ (cmdOf bs idx).u8 2 ∧ keyLive s j = true) →
      revokeAuth s ((cmdOf bs idx).u8 2) (slice (cmdOf bs idx).body 4 64) = true →
      (s.otp.busy.isSome = true → Answered .keyRevoke s bs idx 0x0030 [] (SameButRings s)) ∧
      (s.otp.busy = none → Answered .keyRevoke s bs idx 1 [] fun t =>
        t.otp.busy = some ⟨.revoke, (cmdOf bs idx).tag, idx, byte ((cmdOf bs idx).u8 2), 0⟩ ∧ t.otp.mem = s.otp.mem))

/-- A burn that ends frees the controller, with its words burned as an OR onto what stood; one stopped by low VCC has burned its
first words only. OTP_BURN_COMPLETE verified leaves each lock selected blown, each selected C-region word burned in its three
copies, words 0 to 510 of the image in its slot, or the key revoked; unverified, an image burn sets VERIFY_FAIL. BURN_VCC_LOW,
with VCC below 2.9 V, after n words has burned the first n words of the image and no other. Either way the controller is free
and the long command is over. (18_otp_image_hallmark.md, 17_command_reference.md) -/
def Obligations.BurnsEnd : Prop :=
  ∀ (s : State) (l : Long) (eo : Bool), s.otp.busy = some l → Memory.wf s.otp.mem = true →
    (∀ ok, Completes (.otpBurnComplete ok eo) s fun t =>
      t.otp.busy = none ∧ t.otp.buffer = [] ∧ t.mbox.long = s.mbox.long.filter (· ≠ l)) ∧
    (l.kind = .lock → Completes (.otpBurnComplete true eo) s fun t => ∀ i ∈ lockList l.sel l.sel2, lockBlown t i = true) ∧
    (l.kind = .cRegion → Completes (.otpBurnComplete true eo) s fun t =>
      ∀ w < 6, l.sel.getLsbD w = true → ∀ a ∈ copiesC w, otpWord t a = otpWord s a ||| bufWord s w) ∧
    (l.kind = .revoke → l.sel.toNat < 4 → Completes (.otpBurnComplete true eo) s fun t => keyRevoked t l.sel.toNat = true) ∧
    (l.kind = .image → 1 ≤ s.otp.slot.val →
      (Completes (.otpBurnComplete true eo) s fun t => t.otp.words = 512 ∧
        ∀ w < 511, otpWord t (slotBase s.otp.slot.val + 4 * w) = otpWord s (slotBase s.otp.slot.val + 4 * w) ||| bufWord s w) ∧
      (Completes (.otpBurnComplete false eo) s fun t => t.otp.verifyFail = true) ∧
      ∀ v n, v < 2900 → Completes (.burnVccLow v n) s fun t => t.otp.words = min n 511 ∧
        ∀ w < 511, otpWord t (slotBase s.otp.slot.val + 4 * w) =
          if w < n then otpWord s (slotBase s.otp.slot.val + 4 * w) ||| bufWord s w
          else otpWord s (slotBase s.otp.slot.val + 4 * w)) ∧
    (∀ v n, (v < 2900 → Completes (.burnVccLow v n) s fun t =>
        t.otp.busy = none ∧ t.otp.buffer = [] ∧ t.mbox.long = s.mbox.long.filter (· ≠ l)) ∧
      (2900 ≤ v → exec (.burnVccLow v n) s = .next s))

/-- CHANNEL_CONTROL, ANNEAL, LOAD_SET and LOAD_CLEAR act on every unit selected and on no other. With every selected unit
enabled, action 0 leaves each selected channel's gang off by command, with its output at zero, or due to be at its ring's next
boundary while the ring runs; action 1 leaves it not off by command; channels of no selected gang are as before under action 0.
ANNEAL leaves each selected gang waiting with the command trigger. LOAD_SET writes the commanded state of the selected ports
alone; LOAD_CLEAR leaves each selected latched port in Off or Soft-start with its retry counter at 0, and the others as they
were. A selected disabled unit is refused with PORT_DISABLED. (17_command_reference.md, 10_load_ports.md) -/
def Obligations.ChannelAndLoadCommands : Prop :=
  ∀ (s : State) (bs : List Byte) (idx : Half),
    (Waits s bs idx 0x0200 → (cmdOf bs idx).len = 3 →
      ((∀ c ∈ chansOf ((cmdOf bs idx).u16 0), chanEnabled s c = true) →
        ((cmdOf bs idx).u8 2 = 0 → ∃ d, Answered .channelControl s bs idx 0 d fun t =>
          (∀ c ∈ chansOf ((cmdOf bs idx).u16 0), t.chan[chanLow s c].offByCmd = true ∧
            (s.chan[chanLow s c].offByCmd = false → ∀ e ∈ chanGang s c, t.chan[e].offByCmd = true ∧
              (switching s (chanLow s c) = true → t.chan[e].offDue = true ∧ t.chan[e].u = s.chan[e].u ∧ t.chan[e].uOut = s.chan[e].uOut) ∧
              (switching s (chanLow s c) = false → t.chan[e].offDue = false ∧ t.chan[e].u = 0 ∧ t.chan[e].uOut = 0))) ∧
          (∀ e : Fin 16, (∀ c ∈ chansOf ((cmdOf bs idx).u16 0), e ∉ chanGang s c) → t.chan[e] = s.chan[e]) ∧
          d = le 2 ((maskOf 16 fun c => t.chan[c].offByCmd : Nat) : Int)) ∧
        ((cmdOf bs idx).u8 2 = 1 → s.dev ≠ .deviceStop → (∀ c ∈ chansOf ((cmdOf bs idx).u16 0), wardenHolds s c = false) →
          ∃ d, Answered .channelControl s bs idx 0 d fun t =>
            ∀ c ∈ chansOf ((cmdOf bs idx).u16 0), t.chan[c].offByCmd = false) ∧
        ((cmdOf bs idx).u8 2 = 1 → s.dev ≠ .deviceStop → (∃ c ∈ chansOf ((cmdOf bs idx).u16 0), wardenHolds s c = true) →
          Answered .channelControl s bs idx 0x0023 [] (SameButRings s))) ∧
      (((cmdOf bs idx).u8 2 = 0) → (∃ c ∈ chansOf ((cmdOf bs idx).u16 0), chanEnabled s c = false) →
        Answered .channelControl s bs idx 0x0022 [] (SameButRings s))) ∧
    (Waits s bs idx 0x0201 → (cmdOf bs idx).len = 2 → s.dev ≠ .deviceStop →
      (∀ c ∈ chansOf ((cmdOf bs idx).u16 0), chanEnabled s c = true) →
      ∃ d, Answered .anneal s bs idx 0 d fun t => ∀ c ∈ chansOf ((cmdOf bs idx).u16 0),
        t.chan[chanLow s c].ann.state = .waiting ∧ t.chan[chanLow s c].ann.trigger = .command) ∧
    (Waits s bs idx 0x0700 → (cmdOf bs idx).len = 8 →
      ((∀ p ∈ loadsOf ((cmdOf bs idx).u32 0), loadEn s p = true) →
        ∃ d, Answered .loadSet s bs idx 0 d fun t =>
          (∀ p : Fin 32, t.load[p].commanded =
            if p ∈ loadsOf ((cmdOf bs idx).u32 0) then ((cmdOf bs idx).u32 4).testBit p.val else s.load[p].commanded) ∧
          d = le 4 ((maskOf 32 fun p => t.load[p].commanded : Nat) : Int)) ∧
      ((∃ p ∈ loadsOf ((cmdOf bs idx).u32 0), loadEn s p = false) →
        Answered .loadSet s bs idx 0x0022 [] (SameButRings s))) ∧
    (Waits s bs idx 0x0701 → (cmdOf bs idx).len = 4 → (∀ p ∈ loadsOf ((cmdOf bs idx).u32 0), loadEn s p = true) →
      Answered .loadClear s bs idx 0
        (le 4 ((maskOf 32 fun p => decide (p ∈ loadsOf ((cmdOf bs idx).u32 0) ∧ s.load[p].state = .latched) : Nat) : Int)) fun t =>
        ∀ p : Fin 32,
          (p ∈ loadsOf ((cmdOf bs idx).u32 0) → s.load[p].state = .latched →
            t.load[p].retry = 0 ∧ t.load[p].state = if loadEnabled s p then .softStart else .off) ∧
          (p ∉ loadsOf ((cmdOf bs idx).u32 0) ∨ s.load[p].state ≠ .latched → t.load[p] = s.load[p]))

/-- The reads of a port return its block, its counters and its own fields, and change nothing. For every enabled port LOOP_READ,
SOURCE_READ, BATTERY_READ, CELL_READ, USB_READ and LOAD_READ answer OK with data of the length of their table, its fields at
their offsets, and nothing but the rings and the interrupt causes changes; a disabled port is refused with PORT_DISABLED, an
index without a port with OUT_OF_RANGE. (17_command_reference.md) -/
def Obligations.PortReadsAnswered : Prop :=
  ∀ (s : State) (bs : List Byte) (idx : Half), (cmdOf bs idx).len = 1 →
    (Waits s bs idx 0x0202 → portCheck s 5 ((cmdOf bs idx).u8 0) = none → ∃ d, Answered .loopRead s bs idx 0 d (SameButRings s) ∧
      d.length = 56 ∧ slice d 0 1 = [byte s.chan[chanLow s (fin16 ((cmdOf bs idx).u8 0))].origin.val] ∧
      slice d 48 8 = le64 s.chan[chanLow s (fin16 ((cmdOf bs idx).u8 0))].ann.done) ∧
    (Waits s bs idx 0x0300 → portCheck s 1 ((cmdOf bs idx).u8 0) = none → ∃ d, Answered .sourceRead s bs idx 0 d (SameButRings s) ∧
      d.length = 52 ∧ slice d 0 32 = srcBlock s (fin8 ((cmdOf bs idx).u8 0)) ∧
      ∀ n < 6, slice d (38 + 2 * n) 2 = le16 (counterAt 1 ((cmdOf bs idx).u8 0) n s).n) ∧
    (Waits s bs idx 0x0400 → portCheck s 3 ((cmdOf bs idx).u8 0) = none → ∃ d, Answered .batteryRead s bs idx 0 d (SameButRings s) ∧
      d.length = 106 ∧ slice d 0 64 = batBlock s (gangLow s (fin4 ((cmdOf bs idx).u8 0))) ∧
      ∀ n < 6, slice d (80 + 2 * n) 2 = le16 (counterAt 3 (gangLow s (fin4 ((cmdOf bs idx).u8 0))).val n s).n) ∧
    (Waits s bs idx 0x0500 → portCheck s 3 ((cmdOf bs idx).u8 0) = none → ∃ d, Answered .cellRead s bs idx 0 d (SameButRings s) ∧
      d.length = 190 ∧ slice d 128 2 = le16 s.bat[gangLow s (fin4 ((cmdOf bs idx).u8 0))].bleed ∧
      slice d 130 2 = le16 s.bat[gangLow s (fin4 ((cmdOf bs idx).u8 0))].ovpMask ∧
      slice d 132 2 = le16 s.bat[gangLow s (fin4 ((cmdOf bs idx).u8 0))].openMask ∧
      ∀ n < 3, slice d (152 + 2 * n) 2 = le16 (counterAt 3 (gangLow s (fin4 ((cmdOf bs idx).u8 0))).val (8 + n) s).n) ∧
    (Waits s bs idx 0x0600 → portCheck s 2 ((cmdOf bs idx).u8 0) = none → ∃ d, Answered .usbRead s bs idx 0 d (SameButRings s) ∧
      d.length = 60 ∧ slice d 0 32 = usbBlock s (fin4 ((cmdOf bs idx).u8 0)) ∧
      (∀ n < 8, slice d (32 + 2 * n) 2 = le16 (counterAt 2 ((cmdOf bs idx).u8 0) n s).n) ∧
      slice d 52 4 = le32 s.usb[fin4 ((cmdOf bs idx).u8 0)].contract.pdo ∧
      slice d 56 4 = le32 s.usb[fin4 ((cmdOf bs idx).u8 0)].contract.rdo) ∧
    (Waits s bs idx 0x0702 → portCheck s 4 ((cmdOf bs idx).u8 0) = none → ∃ d, Answered .loadRead s bs idx 0 d (SameButRings s) ∧
      d.length = 32 ∧ slice d 16 1 = [byte s.load[fin32 ((cmdOf bs idx).u8 0)].retry] ∧
      ∀ n < 5, slice d (18 + 2 * n) 2 = le16 (counterAt 4 ((cmdOf bs idx).u8 0) n s).n) ∧
    (Waits s bs idx 0x0300 → 8 ≤ (cmdOf bs idx).u8 0 → Answered .sourceRead s bs idx 0x0020 [] (SameButRings s)) ∧
    (Waits s bs idx 0x0300 → (cmdOf bs idx).u8 0 < 8 → srcEn s (fin8 ((cmdOf bs idx).u8 0)) = false →
      Answered .sourceRead s bs idx 0x0022 [] (SameButRings s))

/-- CHARGER_STATUS clears the word it returns; CHARGER_CLEAR leaves Dormant for Qualification; EQUALISE becomes due; OVP_CLEAR
releases a clearable stop. On an enabled port: CHARGER_STATUS returns the fault word, the charge and discharge states and the
Dormant flag, and the word is 0 after it; CHARGER_CLEAR of a Dormant port clears its flag and enters Qualification, of another
is refused with WRONG_STATE; EQUALISE on a charging port of code 4 that takes it is due; OVP_CLEAR of a clearable stop arms the
comparators again, and is NOT_CLEARABLE for a stop that stands. (17_command_reference.md, 07_charging.md, 08_cells.md) -/
def Obligations.BatteryCommandsAnswered : Prop :=
  ∀ (s : State) (bs : List Byte) (idx : Half) (p : Fin 4), (cmdOf bs idx).len = 1 →
    portCheck s 3 ((cmdOf bs idx).u8 0) = none → p = gangLow s (fin4 ((cmdOf bs idx).u8 0)) →
    (Waits s bs idx 0x0401 → Answered .chargerStatus s bs idx 0
      (le16 s.bat[p].faultWord ++ [byte (chargeCode s.bat[p].charge), byte (disCode (disOf s p)),
        if s.aon.dormant.getLsbD p.val then 1 else 0, 0, 0, 0])
      (SameButRings (onBat p (fun x => { x with faultWord := 0 }) s))) ∧
    (Waits s bs idx 0x0402 → s.dev ≠ .deviceStop →
      (s.bat[p].charge ≠ .dormant → Answered .chargerClear s bs idx 0x0024 [] (SameButRings s)) ∧
      (s.bat[p].charge = .dormant → Answered .chargerClear s bs idx 0 [] fun t =>
        t.bat[p].charge = .qualification ∧ t.aon.dormant.getLsbD p.val = false)) ∧
    (Waits s bs idx 0x0403 → s.dev ≠ .deviceStop →
      (chem s p ≠ 4 → Answered .equalise s bs idx 0x0026 [] (SameButRings s)) ∧
      (chem s p = 4 → (s.bat[p].charge = .off ∨ s.bat[p].charge = .dormant ∨ s.bat[p].charge = .dischargeOnly ∨ s.bat[p].charge = .hold) →
        Answered .equalise s bs idx 0x0024 [] (SameButRings s)) ∧
      (chem s p = 4 → s.bat[p].charge ≠ .off → s.bat[p].charge ≠ .dormant → s.bat[p].charge ≠ .dischargeOnly →
        s.bat[p].charge ≠ .hold → equaliseRefused s p = false →
        Answered .equalise s bs idx 0 [] (SameButRings (onBat p (fun x => { x with eqDue := true }) s)))) ∧
    (Waits s bs idx 0x0501 → s.dev ≠ .deviceStop →
      (s.bat[p].ovp = .armed → Answered .ovpClear s bs idx 0x0024 [] (SameButRings s)) ∧
      (s.bat[p].ovp = .stopped ∨ s.bat[p].ovp = .resetOnly → Answered .ovpClear s bs idx 0x0025 [] (SameButRings s)) ∧
      (s.bat[p].ovp = .clearable → Answered .ovpClear s bs idx 0 [0] fun t =>
        t.bat[p].ovp = .armed ∧ t.bat[p].ovpMask = 0))

/-- ASSAY_STATUS and THERMAL_READ read; TELEMETRY_NOW marks its kinds; ASSAY_SAMPLE and TEST_DAC run one set of their entry.
ASSAY_STATUS returns 156 bytes with the miss counter of entry e at 28 + 2e, THERMAL_READ 164 bytes, with nothing changed;
TELEMETRY_NOW adds its kinds, or the enabled ones, to those due; ASSAY_SAMPLE of valid inputs that ran returns the record and
its results and has advanced the occurrence count of entry 59; TEST_DAC that ran returns four times its code as the expected
code. (17_command_reference.md, 11_assay.md) -/
def Obligations.AssayAndThermalCommands : Prop :=
  ∀ (s : State) (bs : List Byte) (idx : Half),
    (Waits s bs idx 0x0801 → (cmdOf bs idx).len = 1 → (cmdOf bs idx).u8 0 < 4 →
      ∃ d, Answered .assayStatus s bs idx 0 d (SameButRings s) ∧ d.length = 156 ∧
        slice d 1 1 = [if s.group[fin4 ((cmdOf bs idx).u8 0)].lowPower then 1 else 0] ∧
        ∀ e : Fin 64, slice d (28 + 2 * e.val) 2 = le16 s.group[fin4 ((cmdOf bs idx).u8 0)].entries[e].miss.n) ∧
    (Waits s bs idx 0x0900 → (cmdOf bs idx).len = 0 → ∃ d, Answered .thermalRead s bs idx 0 d (SameButRings s) ∧
      d.length = 164 ∧ slice d 160 2 = quantU 2 (s.therm.theta * 256) ∧ slice d 162 2 = quant 2 (s.therm.tj * 10) ∧
      ∀ i : Fin 20, slice d (8 * i.val + 2) 2 = quant 2 (s.therm.sensors[i].used * 10)) ∧
    (Waits s bs idx 0x0802 → (cmdOf bs idx).len = 1 →
      ((cmdOf bs idx).u8 0 = 0 → Answered .telemetryNow s bs idx 0 []
        (SameButRings { s with mbox := { s.mbox with tlmNow := s.mbox.tlmNow ||| enabledKinds s } })) ∧
      (0 < (cmdOf bs idx).u8 0 → (cmdOf bs idx).u8 0 < 128 → Answered .telemetryNow s bs idx 0 []
        (SameButRings { s with mbox := { s.mbox with tlmNow := s.mbox.tlmNow ||| BitVec.ofNat 7 ((cmdOf bs idx).u8 0) } })) ∧
      (128 ≤ (cmdOf bs idx).u8 0 → Answered .telemetryNow s bs idx 0x0020 [] (SameButRings s))) ∧
    (∀ codes g, Waits s bs idx 0x0800 → (cmdOf bs idx).len = 8 → (cmdOf bs idx).u8 0 = g.val → g = fin4 ((cmdOf bs idx).u8 0) →
      1 ≤ (cmdOf bs idx).u8 1 → (cmdOf bs idx).u8 1 ≤ kOf s g → (cmdOf bs idx).u8 1 ≤ 4 →
      (cmdOf bs idx).u8 2 = 0xFF → (cmdOf bs idx).u8 3 = 0 →
      (∀ i ∈ inputsOf (cmdOf bs idx) 4 ((cmdOf bs idx).u8 1),
        i < 48 ∧ inputDefined g i = true ∧ segInput g.val i = false ∧ s.group[g].failedIn.getLsbD i = false) →
      (∀ i ∈ inputsOf (cmdOf bs idx) (4 + (cmdOf bs idx).u8 1) (4 - (cmdOf bs idx).u8 1), i = 0) → s.group[g].lost = false →
      (Answered (.assaySample codes false) s bs idx 0x0100 [] (SameButRings s)) ∧
      ∃ d, d.length = 32 ∧ slice d 12 2 = le 2 ((1024 * 59 + (s.group[g].entries[(59 : Fin 64)].count + 1).toNat : Nat) : Int) ∧
        Answered (.assaySample codes true) s bs idx 0 d fun t =>
          t.group[g].entries[(59 : Fin 64)].count = s.group[g].entries[(59 : Fin 64)].count + 1) ∧
    (∀ codes g, Waits s bs idx 0x0C01 → (cmdOf bs idx).len = 8 → (cmdOf bs idx).u8 0 = g.val → g = fin4 ((cmdOf bs idx).u8 0) →
      (cmdOf bs idx).u16 2 < 1024 → (cmdOf bs idx).u8 4 = 0 → (∀ b ∈ slice (cmdOf bs idx).body 5 3, b = 0) →
      s.group[g].lost = false →
      (Answered (.testDac codes false) s bs idx 0x0100 [] (SameButRings s)) ∧
      ∃ d, d.length = 12 ∧ slice d 8 2 = le 2 ((4 * (cmdOf bs idx).u16 2 : Nat) : Int) ∧
        Answered (.testDac codes true) s bs idx 0 d fun _ => True)

/-- FAULT_LIST returns the standing faults in pages, FAULT_CLEAR clears one that is clearable, ATTEST signs, FAULT_INJECT arms.
FAULT_LIST returns the number that match, at most 15 descriptors from its start, and changes nothing. FAULT_CLEAR of a standing
fault clears it or puts it into re-admission where it is clearable, and is NOT_CLEARABLE with nothing changed where it is not.
ATTEST signs the digest of its 152 bytes, the nonce among them, and takes one draw of the key unit. FAULT_INJECT arms its
checker for COUNT checks, and is refused with SECURITY under debug lock. (17_command_reference.md, 19_faults.md) -/
def Obligations.FaultAndSecurityCommands : Prop :=
  ∀ (s : State) (bs : List Byte) (idx : Half),
    (Waits s bs idx 0x0A00 → (cmdOf bs idx).len = 3 → (cmdOf bs idx).u8 2 < 16 →
      ∃ d l, Answered .faultList s bs idx 0 d (SameButRings s) ∧
        l = s.warden.standing.filter (fun f => (cmdOf bs idx).u8 2 = 0 || ((cmdOf bs idx).u8 2).testBit (clsRank f.cls)) ∧
        slice d 0 2 = le 2 (l.length : Nat) ∧ slice d 2 1 = [byte (min 15 (l.length - (cmdOf bs idx).u16 0))] ∧
        d.length = 4 + 16 * min 15 (l.length - (cmdOf bs idx).u16 0)) ∧
    (∀ f, Waits s bs idx 0x0A01 → (cmdOf bs idx).len = 4 → (cmdOf bs idx).u16 0 ≠ 0xFFFF → (cmdOf bs idx).u8 2 = 0 →
      (cmdOf bs idx).u8 3 = 0 → s.warden.standing.find? (fun g => g.id.toNat = (cmdOf bs idx).u16 0) = some f →
      (clearable s f = false ∨ s.warden.alive = false → Answered .faultClear s bs idx 0x0025 [] (SameButRings s)) ∧
      (clearable s f = true → s.warden.alive = true → ∃ d, slice d 0 1 = [1] ∧
        Answered .faultClear s bs idx 0 d fun t => ∀ g ∈ t.warden.standing, g.id = f.id → g.readmit = true)) ∧
    (Waits s bs idx 0x0B00 → (cmdOf bs idx).len = 32 →
      (attestable s = false → Answered .attest s bs idx 0x0100 [] (SameButRings s)) ∧
      (attestable s = true → ∃ d, Answered .attest s bs idx 0 d (SameButRings { s with free := s.free + 1 }) ∧
        d.length = 216 ∧ slice d 64 8 = le64 Config.dieId ∧ slice d 112 32 = (cmdOf bs idx).body ∧ slice d 144 8 = le64 s.tb ∧
        slice d 152 64 = pad 64 (Config.signature s.free (sha256 (slice d 0 152))))) ∧
    (Waits s bs idx 0x0C00 → (cmdOf bs idx).len = 4 → 1 ≤ (cmdOf bs idx).u8 0 → (cmdOf bs idx).u8 0 ≤ 6 →
      1 ≤ (cmdOf bs idx).u8 1 → (cmdOf bs idx).u8 1 ≤ 16 → (cmdOf bs idx).u16 2 = 0 → s.dev ≠ .deviceStop →
      (s.wires.debugLock = true → Answered .faultInject s bs idx 0x0031 [] (SameButRings s)) ∧
      (s.wires.debugLock = false → Answered .faultInject s bs idx 0 []
        (SameButRings { s with fc := { s.fc with inject := [(byte ((cmdOf bs idx).u8 0), (cmdOf bs idx).u8 1)] } })))

/-- The register rows that clear, force and re-arm do exactly that to their bits. With the targets released: INT_PEND_CLEAR
clears the edge bits written, INT_FORCE sets them, each leaving level bits alone; HOST_ERR_CLEAR clears HOST_ERR; FE_VALID_REARM
clears FE_VALID and keeps the captured fields; RING_FLAG_CLEAR clears the flags written of its block alone; SCRATCH takes the
bytes written; a write of a read-only word has no effect. While the targets are held in reset nothing is acknowledged and
nothing else changes. (15_register_window.md, 14_two_wire_and_spi.md) -/
def Obligations.HostWritesAndW1C : Prop :=
  ∀ s : State, (s.host.released = true →
      (∀ m, Completes (.intPendClear m) s fun t =>
        t.host.intPend = s.host.intPend &&& ~~~(m &&& 0x1FF8) ∧ t.host.irqEn = s.host.irqEn ∧ t.ring = s.ring) ∧
      (∀ m, Completes (.intForce m) s fun t => t.host.intPend = s.host.intPend ||| (m &&& 0x1FF8) ∧ t.ring = s.ring) ∧
      exec .hostErrClear s = .next { s with host := { s.host with hostErr := false } } ∧
      exec .feValidRearm s = .next { s with fc := { s.fc with feValid := false } } ∧
      (∀ q m, Completes (.ringFlagClear q m) s fun t =>
        t.ring[q] = { s.ring[q] with crcErr := s.ring[q].crcErr && !m.getLsbD 0, refused := s.ring[q].refused && !m.getLsbD 1,
                                     winErr := s.ring[q].winErr && !m.getLsbD 2 } ∧
        ∀ j, j ≠ q → t.ring[j] = s.ring[j]) ∧
      (∀ b v, exec (.registerWrite b 0x2C v 0xF) s = .next { s with host := { s.host with scratch := v } }) ∧
      (∀ b v, Completes (.registerWrite b 0x404 v 0xF) s fun t => t.host.irqEn = v.truncate 13 ∧ t.host.alertEn = s.host.alertEn) ∧
      (∀ b v, exec (.registerWrite b 0x0000 v 0xF) s = .next s)) ∧
    (s.host.released = false → ∀ (b : HostBus) (a : Half) (v : Word) (m : BitVec 4) (d : List Byte),
      exec (.registerWrite b a v m) s = .next { s with host := { s.host with out := [], acks := [false] } } ∧
      exec (.spiFrame d) s = .next { s with host := { s.host with out := [], acks := [false] } } ∧
      exec (.hbusWrite a d) s = .next { s with host := { s.host with out := [], acks := [false] } })

/-- A read of TB[31:0] returns it and latches TB[63:32] for its own target. With the targets released, TB_LO_READ returns the
low word of the time base, least significant byte first, and the high word is latched for that target and not for the other.
(13_engines_rings_clocks.md, 15_register_window.md) -/
def Obligations.TimeBaseLatch : Prop :=
  ∀ s : State, s.host.released = true →
    (Completes (.tbLoRead .spi) s fun t => t.host.out = (le64 s.tb).take 4 ∧
      t.host.tbHiSpi = some (BitVec.ofNat 32 (s.tb.toNat / 2 ^ 32)) ∧ t.host.tbHiHbus = s.host.tbHiHbus ∧ t.tb = s.tb) ∧
    (Completes (.tbLoRead .hbus) s fun t => t.host.out = (le64 s.tb).take 4 ∧
      t.host.tbHiHbus = some (BitVec.ofNat 32 (s.tb.toNat / 2 ^ 32)) ∧ t.host.tbHiSpi = s.host.tbHiSpi ∧ t.tb = s.tb)

/-- A doorbell within the credit pushes its slots in one operation; any other leaves PIDX, sets REFUSED and counts. With the
targets released: COUNT 1 to 4 with READY and credit appends the written slots to Q0 in order and advances PIDX by COUNT; COUNT
beyond the credit or beyond 4, or READY at 0, moves nothing, sets REFUSED and advances CNT; COUNT 0 has no effect. (R377) -/
def Obligations.DoorbellRule : Prop :=
  ∀ (s : State) (b : HostBus) (n : BitVec 3), s.host.released = true →
    (n = 0 → exec (.q0Doorbell b n) s = .next s) ∧
    (n ≠ 0 → s.mbox.ready = true → n.toNat ≤ 4 → n.toNat ≤ credit 0 s.ring[0] →
      Completes (.q0Doorbell b n) s fun t => t.ring[0].p = s.ring[0].p + BitVec.ofNat 16 n.toNat ∧
        t.ring[0].entries = s.ring[0].entries ++
          (List.range n.toNat).map (fun k => ⟨memReadN s.mbox.q0mem (256 * ((s.ring[0].p.toNat + k) % 16)) 256, true⟩) ∧
        t.ring[0].refused = s.ring[0].refused ∧ t.ring[0].cnt = s.ring[0].cnt ∧ t.mbox.q0mem = s.mbox.q0mem) ∧
    (n ≠ 0 → (s.mbox.ready = false ∨ 4 < n.toNat ∨ credit 0 s.ring[0] < n.toNat) →
      Completes (.q0Doorbell b n) s fun t =>
        t.ring[0] = { s.ring[0] with refused := true, cnt := s.ring[0].cnt.bump } ∧ t.mbox = s.mbox)

/-- The Q0 window takes bytes within the credit; the windows of Q1 to Q3 show the entries from CIDX; CIDX moves only forward up
to PIDX. With the targets released: bytes written to the Q0 window within the credit land in the slots from PIDX; a byte read of
the window of Q1, Q2 or Q3 gives the entry's byte, or 0x00 at or beyond PIDX; a CIDX write that moves forward within the ring
takes, and one that would move backwards or past PIDX is a bus error that keeps CIDX. (15_register_window.md) -/
def Obligations.RingWindows : Prop :=
  ∀ (s : State) (b : HostBus), s.host.released = true →
    (∀ (o : BitVec 10) (d : List Byte), d ≠ [] → o.toNat + d.length ≤ 1024 → o.toNat + d.length ≤ 256 * credit 0 s.ring[0] →
      Memory.wf s.mbox.q0mem = true →
      Completes (.q0WindowWrite o d) s fun t => t.ring = s.ring ∧
        (∀ k < d.length, memRead t.mbox.q0mem
          (256 * ((s.ring[0].p.toNat + (o.toNat + k) / 256) % 16) + (o.toNat + k) % 256) = d.getD k 0)) ∧
    (∀ (r : Fin 3) (o : BitVec 10), Completes (.ringWindowRead b r o) s fun t =>
      t.host.out = [match s.ring[fin16 (r.val + 1)].entries[o.toNat / entrySize (fin16 (r.val + 1))]? with
        | some e => byteAt e.bytes (o.toNat % entrySize (fin16 (r.val + 1)))
        | none => 0] ∧ ∀ j < 4, (t.ring[fin16 j]).entries = (s.ring[fin16 j]).entries) ∧
    (∀ (r : Fin 3) (c i : Half), indexOf s.ring[fin16 (r.val + 1)] 13 = some c →
      ((i - c).toNat ≤ lagOf s.ring[fin16 (r.val + 1)] c →
        Completes (.cidxWrite b r i) s fun t => indexOf t.ring[fin16 (r.val + 1)] 13 = some i ∧ t.host.hostErr = s.host.hostErr) ∧
      (lagOf s.ring[fin16 (r.val + 1)] c < (i - c).toNat →
        Completes (.cidxWrite b r i) s fun t => indexOf t.ring[fin16 (r.val + 1)] 13 = some c ∧
          t.host.intPend.getLsbD 10 = true ∧ (b = .hbus → t.host.hostErr = true) ∧ (b = .spi → t.host.busErr = true)))

/-- An SPI frame returns the status byte first and then reads or commits its words; a frame ended early counts once. With the
target released: a status poll returns the status byte and clears its two event bits; every frame returns as many bytes as it
was sent, the status byte first; a read frame of one defined word returns its four bytes after the dummy byte; a write frame of
one whole defined word has the effect of that word's register write; a frame ended in a partial byte sets FRAMEERR and advances
SPI_PROTO_CNT by one. (14_two_wire_and_spi.md, 15_register_window.md) -/
def Obligations.SpiTransactions : Prop :=
  ∀ s : State, s.host.released = true →
    (exec .spiStatusPoll s =
      .next { s with host := { s.host with frameErr := false, busErr := false, out := [spiStatus s], acks := [] } }) ∧
    ((spiStatus s).getLsbD 7 = s.mbox.ready ∧ (spiStatus s).getLsbD 1 = s.host.frameErr ∧ (spiStatus s).getLsbD 0 = s.host.busErr ∧
      (spiStatus s).getLsbD 3 = irqLow s) ∧
    (∀ m, m ≠ [] → Completes (.spiFrame m) s fun t => t.host.out.length = m.length ∧ t.host.out.head? = some (spiStatus s)) ∧
    (∀ a x, a % 4 = 0 → definedAddr a = true → ∀ y1 y2 y3 y4,
      Completes (.spiFrame [0x80, byte a, byte (a / 256), x, y1, y2, y3, y4]) s fun t =>
        t.host.out.drop 4 = le32 (readWord s .spi a)) ∧
    (∀ a v, a % 4 = 0 → definedAddr a = true →
      Completes (.spiFrame ([0x00, byte a, byte (a / 256)] ++ le32 v)) s fun t =>
        ∃ u, exec (.registerWrite .spi (BitVec.ofNat 16 a) v 0xF) { s with host := { s.host with frameErr := false, busErr := false } } = .next u ∧
          t = { u with host := { u.host with out := t.host.out, acks := [] } }) ∧
    (∀ m k, k ≠ 0 → Completes (.spiFrameEndedEarly m k) s fun t =>
      t.host.frameErr = true ∧ t.host.spiProto = s.host.spiProto.bump)

/-- HBUS moves its pointer over the bytes it passes, returns and commits words, and counts a protocol event. With the target
released: setting the pointer changes it alone; a read from a pointer, or from the current one, returns as many bytes as were
clocked and leaves the pointer behind the last; a read of one defined word returns it; a write of one whole defined word has
that word's register-write effect, acknowledges every byte and leaves the pointer behind it; a protocol error and a clock-low
timeout each advance HBUS_PROTO_CNT by one. (14_two_wire_and_spi.md, 15_register_window.md) -/
def Obligations.HbusTransactions : Prop :=
  ∀ s : State, s.host.released = true →
    (∀ p, exec (.hbusPointerSet p) s =
      .next { s with host := { s.host with pointer := p, out := [], acks := [true, true, true] } }) ∧
    (∀ p n, Completes (.hbusReadFromPointer p n) s fun t =>
      t.host.out.length = n ∧ t.host.pointer = p + BitVec.ofNat 16 n) ∧
    (∀ n, Completes (.hbusCurrentPointerRead n) s fun t =>
      t.host.out.length = n ∧ t.host.pointer = s.host.pointer + BitVec.ofNat 16 n) ∧
    (∀ p, p.toNat % 4 = 0 → definedAddr p.toNat = true → Completes (.hbusReadFromPointer p 4) s fun t =>
      t.host.out = le32 (readWord s .hbus p.toNat)) ∧
    (∀ p v, p.toNat % 4 = 0 → definedAddr p.toNat = true → Completes (.hbusWrite p (le32 v)) s fun t =>
      ∃ u, exec (.registerWrite .hbus p v 0xF) s = .next u ∧ t.host.pointer = p + 4 ∧
        t.host.acks = [true, true, true, true, true, true, true] ∧
        t = { u with host := { u.host with pointer := p + 4, out := [], acks := t.host.acks } }) ∧
    (∀ p w n cut, (Completes (.hbusProtocolError p w n cut) s fun t => t.host.hbusProto = s.host.hbusProto.bump) ∧
      (Completes (.hbusClockLowTimeout p w n) s fun t => t.host.hbusProto = s.host.hbusProto.bump))

/-- An access to a reserved address is counted and shown per target, raises HOSTERR, is reported, and touches nothing else. With
the targets released and a reserved address: on SPI SPI_ERR_CNT advances, BUSERR is set and the byte reads 0x00; on HBUS
HBUS_ERR_CNT advances, a read returns 0xFF and sets HOST_ERR, a write is not acknowledged; cause HOSTERR is pending; with
FE_VALID at 0 the capture holds master 13 or 14 and the address; no unit of the machine changes. The alert response with ALERT_N
low returns the address and clears the latch unless another device won; with ALERT_N high it is not acknowledged.
(14_two_wire_and_spi.md, 01_architecture.md) -/
def Obligations.HostBusErrorRule : Prop :=
  ∀ s : State, s.host.released = true →
    (∀ a w, definedAddr (BitVec.toNat a) = false →
      (Completes (.hostBusError .spi a w) s fun t => t.host.spiErr = s.host.spiErr.bump ∧ t.host.busErr = true ∧ t.host.out = [0x00] ∧
        t.host.intPend.getLsbD 10 = true ∧ UnitsKept s t ∧ t.mbox = s.mbox ∧
        (s.fc.feValid = false → t.fc.feValid = true ∧ t.fc.feMaster = 13 ∧ t.fc.feAddr = BitVec.ofNat 32 (0x50000000 + a.toNat))) ∧
      (Completes (.hostBusError .hbus a w) s fun t => t.host.hbusErr = s.host.hbusErr.bump ∧
        (w = false → t.host.hostErr = true ∧ t.host.out = [0xFF]) ∧ (w = true → t.host.acks = [false]) ∧
        t.host.intPend.getLsbD 10 = true ∧ UnitsKept s t ∧ t.mbox = s.mbox ∧
        (s.fc.feValid = false → t.fc.feValid = true ∧ t.fc.feMaster = 14 ∧ t.fc.feAddr = BitVec.ofNat 32 (0x50000000 + a.toNat)))) ∧
    (alertLow s = true → exec (.alertResponse none) s =
      .next { s with host := { s.host with alertArmed := false, out := [s.host.haddr.zeroExtend 8 <<< 1], acks := [true] } }) ∧
    (alertLow s = true → ∀ r, r < s.host.haddr → Completes (.alertResponse (some r)) s fun t => t.host.alertArmed = s.host.alertArmed) ∧
    (alertLow s = false → ∀ r, exec (.alertResponse r) s = .next { s with host := { s.host with out := [], acks := [false] } })

/-- Each reset leaves its cause, goes to Boot, keeps what the table "What a reset keeps" keeps and clears the rest. With the
power or VCC that the row needs, and past its threshold (short of it, nothing): power-on leaves cause 1 with the Dormant flags
and shadows cleared; loss of AON power loses them; a brown-out leaves cause 2, keeps the Dormant flags and shadows, and clears
capture and TB; a reset-pin or host reset leaves cause 3 or 4, keeps TB, capture, wires and the safe-mask ports, and stops every
channel; each clears the standing faults, the mailbox and the host layer; no fuse returns to 0. (20_startup_reset_shipping.md)
-/
def Obligations.ResetsKeepAndClear : Prop :=
  ∀ s : State,
    (∀ v, s.aon.powered = false → 4500 ≤ v → Completes (.powerOnReset v) s fun t => t.dev = .boot ∧ t.boot = .awaitVcc ∧ t.aon.powered = true ∧
      t.aon.cause = 1 ∧ t.aon.dormant = 0 ∧ t.aon.arm = false ∧ t.fc = {} ∧ t.warden = {} ∧ t.mbox = {} ∧ t.par = {} ∧ FusesKept s t) ∧
    (∀ v, s.aon.powered = true → v < 4200 → Completes (.aonPowerLoss v) s fun t => t.dev = .unpowered ∧ t.aon.powered = false ∧ t.aon.dormant = 0 ∧
      t.clk.vcc = false ∧ t.mbox = {} ∧ FusesKept s t) ∧
    (∀ v, (v < 4500 → exec (.powerOnReset v) s = .next s) ∧ (4200 ≤ v → exec (.aonPowerLoss v) s = .next s) ∧
      (2550 ≤ v → exec (.brownOut v) s = .next s)) ∧
    (∀ v, s.clk.vcc = true → v < 2550 → Completes (.brownOut v) s fun t => t.dev = .boot ∧ t.boot = .awaitVcc ∧ t.clk.vcc = false ∧ t.aon = { s.aon with cause := 2 } ∧
      t.tb = 0 ∧ t.fc = {} ∧ t.warden = {} ∧ t.mbox = {} ∧ t.par = {} ∧ FusesKept s t) ∧
    (s.clk.vcc = true → Completes .resetPin s fun t => t.dev = .boot ∧ t.boot = .awaitVcc ∧ t.clk.vcc = true ∧
      t.aon = { s.aon with cause := 3, resetNLow := true } ∧ t.tb = s.tb ∧ t.tbRuns = s.tbRuns ∧ t.wires = s.wires ∧
      t.fc.feValid = s.fc.feValid ∧ t.fc.feAddr = s.fc.feAddr ∧ t.fc.feTb = s.fc.feTb ∧ t.fc.q8Ovf = s.fc.q8Ovf ∧
      t.warden = {} ∧ t.mbox = {} ∧ t.par = {} ∧
      (∀ c : Fin 16, t.chan[c].stops.contains .reset = true ∧ t.chan[c].enabled = false ∧ t.chan[c].uOut = 0) ∧
      (∀ p : Fin 32, t.load[p].state = if safeMask s p then s.load[p].state else .off) ∧ FusesKept s t) ∧
    (s.clk.vcc = false → exec .resetPin s = .next { s with aon := { s.aon with resetNLow := true } }) ∧
    (s.mbox.resetDue = true → s.clk.vcc = true → s.aon.resetNLow = false → Completes .hostReset s fun t => t.dev = .boot ∧
      t.boot = .prot ∧ t.aon = { s.aon with cause := 4 } ∧ t.tb = s.tb ∧ t.fc.feValid = s.fc.feValid ∧ t.fc.feAddr = s.fc.feAddr ∧
      t.warden = {} ∧ t.mbox = {} ∧ t.par = {} ∧ FusesKept s t)

/-- Ship mode latches its wake enables and wakes by an armed source or a 2 s hold; an 8 s hold is the Clearing reset.
SHIP_MODE_ENTRY latches the source enables, the reed enable and FLAGS bit 0 and turns everything but AON off; a latched port
below 5.0 V arms, and an armed one from 6.0 V wakes with cause 6; a hold counts from idle, a 2 s hold wakes from ship mode with
cause 7 or else makes the reed event due; the Clearing reset leaves cause 5, ARM cleared and the Dormant flags kept, its end
starts the boot, and the switch arms again after 1 s high. (20_startup_reset_shipping.md) -/
def Obligations.ShipModeAndReed : Prop :=
  ∀ s : State,
    (∀ f, s.mbox.shipDue = some f → (s.dev = .running ∨ s.dev = .standby ∨ s.dev = .deviceStop) →
      Completes .shipModeEntry s fun t => t.dev = .ship ∧ t.aon.shipSrcEn = (s.wires.words[(3 : Fin 6)]).setWidth 8 ∧
        t.aon.shipReed = reedEn s ∧ t.aon.shipFlag0 = f.getLsbD 0 ∧ t.aon.wakeArmed = 0 ∧ t.aon.dormant = s.aon.dormant ∧
        t.clk.vcc = false ∧ t.mbox = {} ∧ FusesKept s t) ∧
    (∀ p : Fin 8, s.dev = .ship → s.aon.shipSrcEn.getLsbD p.val = true →
      ∀ v, v < 5000 → exec (.wakeComparatorArm p v) s = .next { s with aon := { s.aon with wakeArmed := putBit s.aon.wakeArmed p.val true } }) ∧
    (∀ p : Fin 8, s.dev = .ship → s.aon.wakeArmed.getLsbD p.val = true → ∀ v, 6000 ≤ v → Completes (.shipWakeSource p v) s fun t =>
      t.dev = .boot ∧ t.boot = .awaitVcc ∧ t.aon.cause = 6 ∧ t.aon.shipLatch = false ∧ t.aon.sapOut = true ∧ t.aon.wakeArmed = 0) ∧
    (reedListens s = true → s.aon.reed = .idle →
      exec .reedHoldBegin s = .next { s with aon := { s.aon with reed := .holding false false } }) ∧
    (∀ two woke, s.aon.reed = .holding two woke →
      exec .reedHoldEnd s = .next { s with aon := { s.aon with reed := if woke then .waitRelease else .idle } }) ∧
    (∀ woke, s.aon.reed = .holding false woke → reedListens s = true →
      (s.dev = .ship → Completes .reedHold2s s fun t => t.dev = .boot ∧ t.aon.cause = 7 ∧ t.aon.sapOut = true) ∧
      (s.dev ≠ .ship → exec .reedHold2s s = .next { s with aon := { s.aon with reed := .holding true woke, reed2sDue := true } })) ∧
    (∀ two woke, s.aon.reed = .holding two woke → reedListens s = true → Completes .clearingReset s fun t =>
      t.dev = .clearing ∧ t.aon.cause = 5 ∧ t.aon.arm = false ∧ t.aon.dormant = s.aon.dormant ∧ t.aon.sapOut = false ∧
      t.clk.vcc = false ∧ t.warden = {} ∧ FusesKept s t) ∧
    (s.dev = .clearing → exec .clearingResetEnd s = .next { s with dev := .boot, aon := { s.aon with sapOut := true } }) ∧
    (s.aon.reed = .waitRelease → exec .reedRearm s = .next { s with aon := { s.aon with reed := .idle } })

/-- The boot goes from VCC valid to READY step by step. VCC above 2.65 V in Boot sends the wires and notes the phases found
absent by their sense inputs; the release of the pin goes on with the boot; the release of Warden starts TB, at 0 unless a
reset-pin or host reset keeps it; a passed self-test samples the straps and releases Anvil and the host targets, a failed one is
Device-stop with checker 0x0B in the capture, its targets released later; the read pass notes the marginal words, a later one
waits in a burn and in deep standby; READY opens the mailbox with its cause pending and the device Running, or still in
Device-stop. (20_startup_reset_shipping.md, 18_otp_image_hallmark.md, 13_engines_rings_clocks.md) -/
def Obligations.BootSequence : Prop :=
  ∀ s : State,
    (∀ v u, 2650 < v → s.dev = .boot → s.boot = .awaitVcc → s.clk.vcc = false → s.aon.powered = true → Completes (.vccValid v u) s fun t =>
      t.boot = .prot ∧ t.clk.vcc = true ∧ t.dev = .boot ∧
      ∀ k : Fin 28, t.phase[k].populated =
        if 12 ≤ k.val ∧ k.val % 4 ≠ 0 then decide (u.getD ((k.val - 12) / 4 * 3 + (k.val % 4 - 1)) 0 ≤ 2000) else s.phase[k].populated) ∧
    (s.aon.resetNLow = true → s.clk.vcc = true → s.dev = .boot → s.boot = .awaitVcc →
      Completes .resetNRelease s fun t => t.boot = .prot ∧ t.aon.resetNLow = false ∧ t.tb = s.tb) ∧
    (∀ x, s.dev = .boot → s.boot = .prot → s.aon.resetNLow = false → Completes (.wardenRelease x) s fun t =>
      t.boot = .selfTest ∧ t.tbRuns = true ∧ t.clk.crystal = x ∧ t.clk.pll = true ∧
      t.tb = if s.tbRuns ∧ (s.aon.cause = 3 ∨ s.aon.cause = 4) then s.tb else 0) ∧
    (∀ st, s.boot = .selfTest → Completes (.wardenSelfTestComplete true st) s fun t =>
      t.boot = .anvil ∧ t.host.released = true ∧ t.host.haddr = 0x58 + st.zeroExtend 7 ∧ t.warden.alive = true ∧
      t.eng[(0 : Fin 12)].running = true ∧ t.eng[(1 : Fin 12)].running = true ∧ t.fc.feValid = false) ∧
    (∀ st, s.boot = .selfTest → Completes (.wardenSelfTestComplete false st) s fun t =>
      t.boot = .failed ∧ (s.dev ≠ .deviceStop → t.host.intPend.getLsbD 5 = true) ∧ t.dev = .deviceStop ∧ t.fc.feValid = true ∧
      t.fc.feChecker = 0x0B ∧ t.host.released = s.host.released) ∧
    (s.boot = .failed → exec .hostTargetRelease s = .next { s with host := { s.host with released := true } }) ∧
    (∀ ms v, s.boot = .anvil → Completes (.otpReadPass ms v) s fun t => t.boot = .passed ∧ FusesKept s t ∧
      ∀ a, a ∈ t.otp.marginal ↔
        (a ∈ s.otp.marginal ∧ regionOf a = 1) ∨ (a < 0x8000 ∧ regionOf a ≠ 1 ∧ ∃ m ∈ ms, a = m / 4 * 4)) ∧
    (∀ ms v, s.boot = .done → passOwed s = true → passWaits s = true → exec (.otpReadPass ms v) s = .next { s with otp := { s.otp with passDue := true } }) ∧
    (∀ ms v, s.boot = .done → passOwed s = true → passWaits s = false → Completes (.otpReadPass ms v) s fun t =>
      t.otp.passDue = false ∧ FusesKept s t) ∧
    (∀ v, s.boot = .passed → Completes (.anvilReady v) s fun t => t.boot = .done ∧ t.mbox.ready = true ∧
      t.host.intPend.getLsbD 7 = true ∧ t.par.host = [] ∧ t.par.trial = none ∧
      (s.dev = .deviceStop → t.dev = .deviceStop) ∧
      (s.dev ≠ .deviceStop → t.dev = .running ∧ t.ride.v = v ∧ t.mbox.portsDue = true))

/-- A watchdog miss counts and closes the mailbox; the restart opens it with nothing of Anvil's RAM left. With Warden running
and fewer than three restarts in 24 h, ANVIL_WATCHDOG_MISS counts the restart, closes the mailbox and makes ANVIL_RST pending;
from a restart due, ANVIL_RESTART opens the mailbox with the host layer, the trial image, the long commands and the staged image
gone, and keeps TB, the device state, the patch area and RESET_CAUSE. (01_architecture.md, 16_mailbox_protocol.md, 19_faults.md)
-/
def Obligations.AnvilRestarts : Prop :=
  ∀ s : State,
    (s.eng[(0 : Fin 12)].running = true → wardenRuns s = true → s.dev ≠ .standby → (recentRestarts s).length < 3 →
      Completes .anvilWatchdogMiss s fun t => t.mbox.ready = false ∧ t.mbox.restarted = true ∧
        t.warden.restarts = s.tb :: recentRestarts s ∧ t.host.intPend.getLsbD 6 = true ∧ t.ring[0].entries = [] ∧
        t.ring[1].entries = [] ∧ t.dev = s.dev ∧ t.tb = s.tb) ∧
    (s.boot = .done → (s.mbox.restarted = true ∨ s.mbox.restartDue = true) → Completes .anvilRestart s fun t =>
      t.mbox.ready = true ∧ t.mbox.restarted = false ∧ t.mbox.restartDue = false ∧ t.mbox.long = [] ∧ t.mbox.stageLen = 0 ∧
      t.par.host = [] ∧ t.par.trial = none ∧ t.dev = s.dev ∧ t.tb = s.tb ∧ t.aon.cause = s.aon.cause ∧ t.boot = s.boot ∧
      t.mbox.patch = s.mbox.patch)

/-- Standby is entered only with its conditions, opens and closes its windows, and is left with its cause pending. With every
condition of R524 held for the delay, STANDBY_ENTRY puts the device in Understory standby with its source engine and makes cause
STANDBY pending; a window whose interval is over opens eight frames, and closes after them with the other engines retained;
STANDBY_EXIT with the cause that arose returns to Running, another does nothing; a source engine silent for 16 ms in standby is
declared failed, a silent Anvil counted as a watchdog miss, in a window opened for it. (13_engines_rings_clocks.md,
20_startup_reset_shipping.md) -/
def Obligations.StandbyRows : Prop :=
  ∀ s : State,
    (∀ p w, standbyEngine s = some (p, w) → standbyDue s = true → Completes .standbyEntry s fun t =>
      t.dev = .standby ∧ t.stby.engine = some p ∧ t.stby.watch = w ∧ t.stby.window = none ∧ t.stby.winTb = s.tb ∧
      t.stby.anvilTb = s.tb ∧ t.stby.srcTb = s.tb ∧ t.host.intPend.getLsbD 12 = true ∧
      t.eng[(0 : Fin 12)].retained = s.eng[(0 : Fin 12)].retained ∧ (s.eng[(1 : Fin 12)].running = true → t.eng[(1 : Fin 12)].retained = true)) ∧
    (standbyDue s = false → exec .standbyEntry s = .next s) ∧
    (∀ c, s.dev = .standby → s.stby.exitDue = some (byte (standbyCauseCode c)) → Completes (.standbyExit c) s fun t =>
      t.dev = .running ∧ t.stby = {} ∧ t.host.intPend.getLsbD 12 = true ∧ ∀ e : Fin 12, t.eng[e].retained = false) ∧
    (∀ c, s.dev ≠ .standby ∨ s.stby.exitDue ≠ some (byte (standbyCauseCode c)) → exec (.standbyExit c) s = .next s) ∧
    (s.dev = .standby → s.stby.window = none → windowDue s = true → Completes .wakeWindowOpen s fun t =>
      t.stby.window = some 8 ∧ t.stby.winTb = s.tb ∧ t.dev = .standby ∧ ∀ e : Fin 12, t.eng[e].retained = false) ∧
    (windowDue s = false → exec .wakeWindowOpen s = .next s) ∧
    (s.dev = .standby → s.stby.window = some 0 → Completes .wakeWindowEnd s fun t =>
      t.stby.window = none ∧ t.dev = .standby ∧ (s.eng[(1 : Fin 12)].running = true → t.eng[(1 : Fin 12)].retained = true)) ∧
    (s.dev = .standby → s.warden.alive = true → passed s s.stby.anvilTb 16 = true → (recentRestarts s).length < 3 →
      Completes (.standbyWatchdogMiss true) s fun t =>
        t.mbox.ready = false ∧ t.warden.restarts = s.tb :: recentRestarts s ∧ t.stby.window.isSome = true) ∧
    (∀ p, s.dev = .standby → s.warden.alive = true → s.stby.engine = some p → passed s s.stby.srcTb 16 = true →
      Completes (.standbyWatchdogMiss false) s fun t =>
        t.eng[srcEngine p].failed = true ∧ t.eng[srcEngine p].running = false)

/-- Device-stop is left only by a reset that restarts Warden, loss of power, or ship mode. From Device-stop, whatever the
command, the device is in Device-stop after it unless the command is one of the resets, the loss of power, or the entry to ship
mode. (19_faults.md, 20_startup_reset_shipping.md) -/
def Obligations.DeviceStopIsLeftByResetsAlone : Prop :=
  ∀ (c : Instr) (s t : State), s.dev = .deviceStop → exec c s = .next t →
    t.dev = .deviceStop ∨ (∃ v, c = .powerOnReset v) ∨ (∃ v, c = .aonPowerLoss v) ∨ (∃ v, c = .brownOut v) ∨ c = .resetPin ∨ c = .hostReset ∨
    c = .shipModeEntry ∨ c = .clearingReset

/-- No command returns a bit of the one-time memory to 0. Every bit of the one-time memory that is 1 before a step is 1 after
it, whatever the command and the state. (18_otp_image_hallmark.md) -/
def Obligations.FusesNeverClear : Prop :=
  ∀ s t : State, step s = .next t → FusesKept s t

/-- Every step keeps the canonical form of every addressed buffer. If the one-time memory, the burn buffer, the Q0 slots, the
staging and patch areas and the snapshot buffers have their canonical form, they have it after any step. (15_register_window.md,
17_command_reference.md, 18_otp_image_hallmark.md) -/
def Obligations.BuffersStayCanonical : Prop :=
  ∀ s t : State, BuffersWf s → step s = .next t → BuffersWf t

/-- Right after a power-on reset the AON domain holds cause 1, VCC is awaited, nothing runs, and the buffers are canonical. The
reset state is in Boot awaiting VCC with RESET_CAUSE 0x01, no Dormant flag, TB at 0 and not running, no standing fault, the
capture empty, the mailbox closed and every ring empty; IRQ_EN and ALERT_EN hold their defaults; its buffers have their
canonical form. (20_startup_reset_shipping.md, 15_register_window.md) -/
def Obligations.ResetState : Prop :=
  State.reset.dev = .boot ∧ State.reset.boot = .awaitVcc ∧ State.reset.aon.cause = 1 ∧ State.reset.aon.dormant = 0 ∧
  State.reset.tb = 0 ∧ State.reset.tbRuns = false ∧ State.reset.warden.standing = [] ∧ State.reset.fc.feValid = false ∧
  State.reset.mbox.ready = false ∧ (∀ q : Fin 16, State.reset.ring[q].entries = [] ∧ State.reset.ring[q].p = 0) ∧
  State.reset.host.irqEn = 0x0073 ∧ State.reset.host.alertEn = 0x0070 ∧ State.reset.pending = [] ∧ BuffersWf State.reset

/-- A push that finds its credits places whole entries at P and advances P by them. With VCC valid, a producer of the ring and
enough credit: the record's entries follow the live ones, P advances by their number, no consumer index moves, no other ring and
no unit changes; a host's Q0 slot is written first, and Q14 takes the entry where its port holds none. A push of another master
is a bus error that takes a free capture and leaves every ring, of a host target one that is shown to it; a PD PHY's has no
effect (log 109). (13_engines_rings_clocks.md, 01_architecture.md) -/
def Obligations.RingPushPlaces : Prop :=
  ∀ (q : Fin 16) (m : BitVec 4) (e : List Byte) (s : State), s.clk.vcc = true →
    (isProducer q m = true → q ≠ 0 → q ≠ 14 → (q = 2 → s.mbox.evLost = 0) → s.ring[q].stalled = [] →
      recordEntries q e ≤ credit q s.ring[q] → Completes (.ringPush q m e) s fun t =>
        t.ring[q].entries = s.ring[q].entries ++ cutEntries (entrySize q) e (recordEntries q e) ∧
        t.ring[q].p = s.ring[q].p + BitVec.ofNat 16 (recordEntries q e) ∧ t.ring[q].cons = s.ring[q].cons ∧
        (∀ j : Fin 16, j ≠ q → t.ring[j] = s.ring[j]) ∧ t.fc = s.fc ∧ UnitsKept s t) ∧
    (isProducer 0 m = true → s.mbox.ready = true → e.length = 256 → Memory.wf s.mbox.q0mem = true → 1 ≤ credit 0 s.ring[0] →
      Completes (.ringPush 0 m e) s fun t => t.ring[0].entries = s.ring[0].entries ++ [⟨e, true⟩] ∧
        t.ring[0].p = s.ring[0].p + 1 ∧ (∀ j : Fin 16, j ≠ 0 → t.ring[j] = s.ring[j]) ∧
        UnitsKept { s with stby := { s.stby with since := none } } t) ∧
    (isProducer 14 m = true → s.usb[fin4 (byteAt e 0).toNat].held = [] → 1 ≤ credit 14 s.ring[14] → e.length = 48 →
      Completes (.ringPush 14 m e) s fun t => t.ring[14].entries = s.ring[14].entries ++ [⟨e, true⟩] ∧
        t.ring[14].p = s.ring[14].p + 1 ∧ (∀ j : Fin 16, j ≠ 14 → t.ring[j] = s.ring[j]) ∧ UnitsKept s t) ∧
    (isProducer q m = false → m ≠ 15 → s.fc.feValid = false → Completes (.ringPush q m e) s fun t =>
      t.ring = s.ring ∧ t.fc.feValid = true ∧ t.fc.feChecker = (if m = 13 ∨ m = 14 then 8 else 7) ∧ t.fc.feType = 3 ∧
      t.fc.feMaster = m ∧ t.fc.feAddr = entryAddr q s.ring[q].p ∧ UnitsKept s t ∧
      (m = 13 ∨ m = 14 → t.host.intPend.getLsbD 10 = true)) ∧
    (isProducer q 15 = false → exec (.ringPush q 15 e) s = .next s)

/-- A push without credit is refused, kept, dropped, held, or overruns the slowest consumers, as its ring's policy says. Without
credit: Q0's doorbell is refused and counted; a stalling ring keeps the entry aside in order; a dropping ring counts one drop
for the record, on Q2 and Q3 with the LOST cause, on Q8 with the collector's counter and pending bit; on Q4 to Q7 every consumer
at P less the capacity advances by one entry, the push succeeds; Q14 fills the four places of its port and then counts a loss
that Anvil answers. (13_engines_rings_clocks.md, 19_faults.md) -/
def Obligations.RingPushPolicies : Prop :=
  ∀ (q : Fin 16) (m : BitVec 4) (e : List Byte) (s : State), s.clk.vcc = true → isProducer q m = true →
    credit q s.ring[q] < recordEntries q e →
    (q = 0 → credit q s.ring[q] = 0 → Completes (.ringPush q m e) s fun t =>
      t.ring[q] = { s.ring[q] with cnt := s.ring[q].cnt.bump, refused := true } ∧ t.mbox = s.mbox) ∧
    (ringPolicy q = .stall → Completes (.ringPush q m e) s fun t =>
      t.ring[q] = { s.ring[q] with stalled := s.ring[q].stalled ++ [e] } ∧ UnitsKept s t) ∧
    ((q = 2 ∨ q = 3 ∨ q = 11 ∨ q = 13) → (q = 2 → s.mbox.evLost = 0) → Completes (.ringPush q m e) s fun t =>
      t.ring[q] = { s.ring[q] with cnt := s.ring[q].cnt.bump } ∧ UnitsKept s t ∧
      ((q = 2 ∨ q = 3) → t.host.intPend.getLsbD 8 = true) ∧ (q = 2 → t.mbox.evLost = 1)) ∧
    (q = 8 → credit q s.ring[q] = 0 → Completes (.ringPush q m e) s fun t => t.ring[q] = { s.ring[q] with cnt := s.ring[q].cnt.bump } ∧
      t.fc.q8Ovf = s.fc.q8Ovf.bump ∧ t.fc.pend = putBit s.fc.pend (byteAt e 0).toNat true ∧ UnitsKept s t) ∧
    (ringPolicy q = .overrun → recordEntries q e = 1 → Completes (.ringPush q m e) s fun t =>
      t.ring[q].p = s.ring[q].p + 1 ∧ (∃ l, t.ring[q].entries = l ++ cutEntries (entrySize q) e 1) ∧
      ∀ k ∈ ringConsumers q, ∀ i, indexOf s.ring[q] k = some i →
        indexOf t.ring[q] k = some (if lagOf s.ring[q] i = capacity q then i + 1 else i)) ∧
    (q = 14 → credit q s.ring[q] = 0 → Completes (.ringPush q m e) s fun t =>
      t.ring[q].entries = s.ring[q].entries ∧
      t.usb[fin4 (byteAt e 0).toNat] = (let u := s.usb[fin4 (byteAt e 0).toNat]
        if u.held.length < 4 then { u with held := u.held ++ [(s.tb, e)] } else { u with holdLost := true }) ∧
      ∀ p : Fin 4, p ≠ fin4 (byteAt e 0).toNat → t.usb[p] = s.usb[p])

/-- A pop delivers the entry at the consumer's index and moves it by one; a ring CRC mismatch is flagged and reported. A
consumer's pop of a good entry moves its index by one and nothing else, of an empty ring nothing; of an entry whose ring CRC
does not match, the same with CRC_ERR and, where it was 0, CRC_IDX set, and a report with the popping master, the entry's
address and access type ring pop in a free capture; Anvil answers a Q0 entry so spoiled with BAD_CRC; a master that is no
consumer makes a bus error, which a PD PHY's master ID leaves without effect (log 109). (13_engines_rings_clocks.md,
16_mailbox_protocol.md) -/
def Obligations.RingPops : Prop :=
  ∀ (q : Fin 16) (m : BitVec 4) (e : Entry) (i : Half) (s : State), s.clk.vcc = true → s.fc.inject = [] →
    (isConsumer q m = true → s.ring[q].stalled = [] → headEntry q (consumerKey q m) s = some e →
      indexOf s.ring[q] (consumerKey q m) = some i →
      (q ≠ 0 → e.crcOk = true → Completes (.ringPop q m true) s fun t =>
        indexOf t.ring[q] (consumerKey q m) = some (i + 1) ∧ t.ring[q].p = s.ring[q].p ∧ t.ring[q].crcErr = s.ring[q].crcErr ∧
        (∀ j : Fin 16, j ≠ q → t.ring[j] = s.ring[j]) ∧ t.fc = s.fc ∧ UnitsKept s t) ∧
      (q = 0 → e.crcOk = true → Completes (.ringPop 0 m true) s fun t =>
        indexOf t.ring[0] 0 = some (i + 1) ∧ t.ring[0].p = s.ring[0].p ∧ t.ring[0].crcErr = s.ring[0].crcErr ∧
        (∀ j : Fin 16, j ≠ 0 → t.ring[j] = s.ring[j]) ∧ t.fc = s.fc ∧ UnitsKept s t) ∧
      (∀ ok, q ≠ 0 → (ok && e.crcOk) = false → s.fc.feValid = false → Completes (.ringPop q m ok) s fun t =>
        indexOf t.ring[q] (consumerKey q m) = some (i + 1) ∧ t.ring[q].crcErr = true ∧
        t.ring[q].crcIdx = (if s.ring[q].crcErr then s.ring[q].crcIdx else i) ∧ t.fc.feValid = true ∧ t.fc.feChecker = 3 ∧
        t.fc.feMaster = consumerMaster q m ∧ t.fc.feType = 4 ∧ t.fc.feAddr = entryAddr q i ∧
        (q.val < 4 → t.host.intPend.getLsbD 9 = true) ∧ UnitsKept s t) ∧
      (∀ ok, q = 0 → (ok && e.crcOk) = false → s.fc.feValid = false → s.ring[1].stalled = [] → 1 ≤ credit 1 s.ring[1] →
        Completes (.ringPop q m ok) s fun t => indexOf t.ring[0] 0 = some (i + 1) ∧
          t.ring[1].entries = s.ring[1].entries ++ [⟨responseBytes (cmdOf e.bytes i) 0x0010 [], true⟩])) ∧
    (isConsumer q m = true → headEntry q (consumerKey q m) s = none → ∀ ok, exec (.ringPop q m ok) s = .next s) ∧
    (isConsumer q m = false → consumerMaster q m ≠ 15 → s.fc.feValid = false → ∀ ok, Completes (.ringPop q m ok) s fun t =>
      t.ring = s.ring ∧ t.fc.feChecker = (if m = 13 ∨ m = 14 then 8 else 7) ∧ t.fc.feType = 4 ∧ t.fc.feMaster = m ∧ t.fc.feValid = true) ∧
    (isConsumer q m = false → consumerMaster q m = 15 → ∀ ok, exec (.ringPop q m ok) s = .next s)

/-- A consumer index moves only forwards and not past P; an empty pop is no error. A write within the live entries moves the
index there; a write that is farther from the index than P, backwards or beyond P, leaves the ring as it is and is a bus error
with access type ring pop, which takes a free capture; a pop with no entry at the consumer's index changes nothing. (R330) -/
def Obligations.ConsumerIndexRule : Prop :=
  ∀ (q : Fin 16) (m : BitVec 4) (c j : Half) (s : State), s.clk.vcc = true → isConsumer q m = true →
    (s.ring[q].stalled = [] → indexOf s.ring[q] (consumerKey q m) = some c → (j - c).toNat ≤ lagOf s.ring[q] c →
      Completes (.consumerIndexWrite q m j) s fun t => indexOf t.ring[q] (consumerKey q m) = some j ∧
        t.ring[q].p = s.ring[q].p ∧ (∀ k : Fin 16, k ≠ q → t.ring[k] = s.ring[k]) ∧ t.fc = s.fc ∧ UnitsKept s t) ∧
    (indexOf s.ring[q] (consumerKey q m) = some c → lagOf s.ring[q] c < (j - c).toNat →
      Completes (.consumerIndexWrite q m j) s fun t => t.ring[q].cons = s.ring[q].cons ∧ UnitsKept s t ∧
        (s.fc.feValid = false → q ≠ 15 → t.ring = s.ring ∧ t.fc.feValid = true ∧ t.fc.feType = 4 ∧ t.fc.feMaster = m ∧
          t.fc.feChecker = (if q = 1 ∨ q = 2 ∨ q = 3 then 8 else 7))) ∧
    (headEntry q (consumerKey q m) s = none → ∀ ok, exec (.ringPop q m ok) s = .next s)

/-- Entries kept aside go to their ring in order as credit returns. STALLED_PUSH moves the oldest stalled entries, in the order
produced, until none is left or the next finds no credit; HOLD_RELEASE does so with the entries that the PD ports hold, a lone
one first of all; with no credit neither changes anything. (13_engines_rings_clocks.md) -/
def Obligations.StalledAndHeldEntries : Prop :=
  ∀ (q : Fin 16) (s : State),
    (Completes (.stalledPush q) s fun t => ∃ a b, s.ring[q].stalled = a ++ b ∧ t.ring[q].stalled = b ∧
      t.ring[q].entries = s.ring[q].entries ++ a.flatMap (fun bs => cutEntries (entrySize q) bs (recordEntries q bs)) ∧
      (∀ bs, b.head? = some bs → credit q t.ring[q] < recordEntries q bs) ∧ t.ring[q].cons = s.ring[q].cons ∧
      (∀ j : Fin 16, j ≠ q → t.ring[j] = s.ring[j]) ∧ t.fc = s.fc ∧ UnitsKept s t) ∧
    (∀ (p : Fin 4) (tb : TB) (e : List Byte), s.usb[p].held = [(tb, e)] → (∀ r : Fin 4, r ≠ p → s.usb[r].held = []) →
      1 ≤ credit 14 s.ring[14] → e.length = 48 → Completes .holdRelease s fun t =>
        t.ring[14].entries = s.ring[14].entries ++ [⟨e, true⟩] ∧ t.usb[p] = { s.usb[p] with held := [] } ∧
        ∀ r : Fin 4, r ≠ p → t.usb[r] = s.usb[r]) ∧
    (credit 14 s.ring[14] = 0 → exec .holdRelease s = .next s)

/-- A report takes the free capture, or goes to Q8, or is counted with its checker's pending bit; error sources form theirs.
With VCC valid, FAULT_REPORT takes the capture while FE_VALID is 0, goes to Q8 while it is 1, and without credit there advances
the overflow counter and sets the pending bit. ECC_ERROR, INTERNAL_BUS_ERROR and CRYSTAL_LOST, with the capture free and no
injection armed, capture their own checker, master, access and address; a double-bit error of the ring SRAM spoils the entry at
its place, one fetched from an engine's RAM stops the engine, as a fetch outside the ranges of its address map does; an access
that the map permits is no error; the PLL loses the crystal. (19_faults.md, 13_engines_rings_clocks.md, 01_architecture.md) -/
def Obligations.FaultCollection : Prop :=
  ∀ (r : Report) (s : State), s.clk.vcc = true →
    (s.fc.feValid = false → exec (.faultReport r) s = .next { s with fc := { s.fc with
      feAddr := r.addr, feMaster := r.master, feType := BitVec.ofNat 3 (accessCode r.access), feChecker := r.checker,
      feTb := s.tb, feValid := true, capture := some r } }) ∧
    (s.fc.feValid = true → 1 ≤ credit 8 s.ring[8] → Completes (.faultReport r) s fun t => t.fc = s.fc ∧
      t.ring[8].entries = s.ring[8].entries ++ [⟨reportBytes s.tb r, true⟩] ∧ t.ring[8].p = s.ring[8].p + 1 ∧
      reportOf (reportBytes s.tb r) = r ∧ (∀ j : Fin 16, j ≠ 8 → t.ring[j] = s.ring[j]) ∧ UnitsKept s t) ∧
    (s.fc.feValid = true → credit 8 s.ring[8] = 0 → Completes (.faultReport r) s fun t =>
      t.fc.q8Ovf = s.fc.q8Ovf.bump ∧ t.fc.pend = putBit s.fc.pend r.checker.toNat true ∧
      t.ring[8].entries = s.ring[8].entries ∧ t.fc.feValid = true ∧ t.fc.capture = s.fc.capture ∧ UnitsKept s t) ∧
    (s.fc.feValid = false → s.fc.inject = [] → ∀ sram (i : Fin 16) m dbl addr acc syn,
      Completes (.eccError sram i m dbl addr acc syn) s fun t =>
        t.fc.feValid = true ∧ t.fc.feChecker = (if dbl then 2 else 1) ∧ t.fc.feAddr = addr ∧
        t.fc.feMaster = (if sram then m else BitVec.ofNat 4 (i.val % 12)) ∧
        t.fc.feType = BitVec.ofNat 3 (accessCode acc) ∧ t.fc.capture.map (·.value) = some syn ∧
        UnitsKept { s with eng := t.eng } t ∧
        (∀ e : Fin 12, t.eng[e] = if sram = false ∧ dbl = true ∧ acc = .fetch ∧ e.val = i.val % 12 then { s.eng[e] with halted := true }
          else s.eng[e]) ∧
        ((sram && dbl) = false → t.ring = s.ring) ∧
        ((sram && dbl) = true → (∀ j : Fin 16, j ≠ i → t.ring[j] = s.ring[j]) ∧ t.ring[i].p = s.ring[i].p ∧
          t.ring[i].entries.map (·.bytes) = s.ring[i].entries.map (·.bytes) ∧
          ∀ k, k < s.ring[i].entries.length →
            ((cEff s.ring[i]).toNat + k) % capacity i = (addr.toNat - ringBase i) / entrySize i →
            (t.ring[i].entries[k]?).map (·.crcOk) = some false)) ∧
    (s.fc.feValid = false → ∀ m acc addr, m.toNat ≤ 12 → acc ≠ .none → mapPermits s m acc addr = false →
      Completes (.internalBusError m acc addr) s fun t =>
        t.fc.feValid = true ∧ t.fc.feChecker = 7 ∧ t.fc.feMaster = m ∧ t.fc.feAddr = addr ∧
        t.fc.feType = BitVec.ofNat 3 (accessCode acc) ∧ t.ring = s.ring ∧ UnitsKept { s with eng := t.eng } t ∧
        ∀ e : Fin 12, t.eng[e] = if acc = .fetch ∧ e.val = m.toNat then { s.eng[e] with halted := true } else s.eng[e]) ∧
    (∀ m acc addr, mapPermits s m acc addr = true → exec (.internalBusError m acc addr) s = .next s) ∧
    (s.clk.crystal = true → s.fc.feValid = false → Completes .crystalLost s fun t => t.clk.crystal = false ∧
      t.clk.crystalLost = true ∧ t.clk.switchDue = false ∧ t.fc.feChecker = 0x3C ∧ t.fc.feValid = true ∧ t.ring = s.ring)

/-- Warden classifies the captured report, lists it as a standing fault with a fresh ID, and tells Anvil on Q9. With a report in
the capture of a checker whose reaction is the class alone, no standing fault of its checker and unit, and room in the list: the
list gains it with the class of the table "Checkers", one occurrence, the capture's TB and an ID no standing fault has; Q9 gains
the reaction of kind 0 with class, ID and the report's bytes. A configuration record at the head of Q8 gives Warden its key's
value. (19_faults.md) -/
def Obligations.WardenListsAndTells : Prop :=
  (∀ (r : Report) (cls : Cls) (s : State), s.fc.capture = some r → s.warden.alive = true → s.dev ≠ .standby →
    restartsAnvil r = false → spoilsEngine r = false → r.checker ∉ ([0x06, 0x30, 0x31, 0x32, 0x38] : List Byte) →
    classOf s r = some cls → cls ≠ .deviceStop → findFault s r.checker r.unitKind r.unitIdx = none →
    s.warden.standing.length < 512 → s.ring[9].stalled = [] → 1 ≤ credit 9 s.ring[9] → Completes .wardenTakeReport s fun t =>
      t.fc.capture = none ∧ t.fc.feValid = s.fc.feValid ∧ t.dev = s.dev ∧ UnitsKept { s with stby := { s.stby with since := none } } t ∧
      ∃ id : Half, id ∉ s.warden.standing.map (·.id) ∧ (1 ≤ s.warden.nextId.toNat → s.warden.nextId ≠ 0xFFFF → 1 ≤ id.toNat ∧ id ≠ 0xFFFF) ∧
        t.warden.standing = s.warden.standing ++ [(⟨id, cls, cls, r, 1, s.fc.feTb, r.injected, isResetOnly s r, false⟩ : FaultRec)] ∧
        t.ring[9].entries = s.ring[9].entries ++ [⟨[0, clsCode cls] ++ le16 id ++ pad 12 (reportBody s.fc.feTb r) ++ le64 s.fc.feTb ++ pad 8 [], true⟩]) ∧
  (∀ (bs : List Byte) (i : Half) (s : State), headEntry 8 1 s = some ⟨bs, true⟩ → byteAt bs 0 = 0 → wardenRuns s = true →
    s.fc.inject = [] → indexOf s.ring[8] 1 = some i → Completes .configRecordTake s fun t =>
      t.warden.keys = putKey (BitVec.ofNat 16 (ofLe (slice bs 16 2))) (ofLeS (slice bs 20 4)) s.warden.keys ∧
      indexOf t.ring[8] 1 = some (i + 1) ∧ t.warden.standing = s.warden.standing ∧ UnitsKept { s with tap := { s.tap with uvHold := t.tap.uvHold } } t)

/-- An engine declared failed leaves its rings and is restarted after 1 s unless it is the fourth failure in 24 h; 64 frames
close its faults. ENGINE_FAILURE_DECLARED stops and isolates an engine of 2 to 11 that missed eight frames in succession,
removes its consumer indices, takes its source port out of delivery, stands its fault under checker 0x09, and notes its restart
unless three failures lie within 24 h; ENGINE_RESTART, its second over, runs it again to be verified, each index at P, a source
port's state new but for its over-voltage stop; ENGINE_VERIFIED after 64 frames closes its Degrade faults. (19_faults.md,
13_engines_rings_clocks.md, 01_architecture.md) -/
def Obligations.EngineFailureAndRestart : Prop :=
  ∀ (e : Fin 12) (s : State), wardenRuns s = true →
    (2 ≤ e.val → 8 ≤ s.eng[e].missed → s.eng[e].failed = false → s.warden.standing.length < 512 →
      Completes (.engineFailureDeclared e) s fun t =>
      t.eng[e].running = false ∧ t.eng[e].failed = true ∧ t.eng[e].frames = 0 ∧ t.eng[e].missed = 0 ∧ t.eng[e].due = [] ∧
      t.eng[e].fails = s.tb :: within day s.tb s.eng[e].fails ∧ (∀ d : Fin 12, d ≠ e → t.eng[d] = s.eng[d]) ∧
      (∀ q ∈ engRings e, indexOf t.ring[q] (engMaster e) = none) ∧
      (∀ p : Fin 8, srcEngine p = e → t.src[p].path = .absent ∨ t.src[p].path = .withdrawing) ∧
      (∃ f ∈ t.warden.standing, f.rep.checker = 9 ∧ f.rep.unitKind = 7 ∧ f.rep.unitIdx = byte e.val ∧ 1 ≤ clsRank f.cls) ∧
      (s.dev ≠ .deviceStop → (within day s.tb s.eng[e].fails).length < 3 → e ∈ t.warden.restartDue) ∧
      (3 ≤ (within day s.tb s.eng[e].fails).length → e ∉ t.warden.restartDue)) ∧
    (s.eng[e].missed < 8 → exec (.engineFailureDeclared e) s = .next s) ∧
    (e ∈ s.warden.restartDue → passed s (failedAt s e) 1000 = true → Completes (.engineRestart e) s fun t =>
      t.eng[e].running = true ∧ t.eng[e].failed = false ∧ t.eng[e].verify = true ∧ t.eng[e].frames = 0 ∧ e ∉ t.warden.restartDue ∧
      (∀ q ∈ engRings e, indexOf t.ring[q] (engMaster e) = some s.ring[q].p) ∧
      (∀ p : Fin 8, srcEngine p = e → t.src[p] = freshSrc s.src[p]) ∧ ∀ d : Fin 12, d ≠ e → t.eng[d] = s.eng[d]) ∧
    (s.eng[e].verify = true → 64 ≤ s.eng[e].frames → engineUp s e = true → Completes (.engineVerified e) s fun t =>
      t.eng[e] = { s.eng[e] with verify := false } ∧ (∀ f ∈ t.warden.standing, f ∈ s.warden.standing ∧ f ∉ engineFaults s e) ∧
      (∀ f ∈ s.warden.standing, f.id ∉ (engineFaults s e).map (·.id) → f ∈ t.warden.standing) ∧ UnitsKept s { t with eng := s.eng })

/-- A Warden watchdog expiry is Device-stop by the hardware, with every channel stopped and engines 2 to 11 in reset. With
Warden alive, its watchdog not served for 4 ms, its clock on and no Device-stop yet, WARDEN_WATCHDOG_EXPIRY stops Warden, puts
the device in Device-stop with the DEVSTOP cause pending and the driver domain off, asserts the stop on every channel, holds
engines 2 to 11, disables every USB port, takes load ports outside the safe mask off, and takes a free capture with checker
0x0B. (19_faults.md) -/
def Obligations.WardenWatchdogStopsDevice : Prop :=
  ∀ s : State, s.warden.alive = true → s.dev ≠ .deviceStop → deepStandby s = false → passed s s.warden.fedTb 4 = true →
  Completes .wardenWatchdogExpiry s fun t =>
    t.dev = .deviceStop ∧ t.warden.alive = false ∧ t.eng[(1 : Fin 12)].failed = true ∧ t.host.intPend.getLsbD 5 = true ∧
    t.clk.vdrvOk = false ∧ (∀ c : Fin 16, t.chan[c].stops.contains .deviceStop = true ∧ switching t c = false) ∧
    (∀ e : Fin 12, 2 ≤ e.val → t.eng[e].running = false ∧ ∀ q ∈ engRings e, indexOf t.ring[q] (engMaster e) = none) ∧
    (s.fc.feValid = false → t.fc.feChecker = 0x0B ∧ t.fc.feValid = true) ∧ t.warden.restartDue = [] ∧ t.stby = {} ∧
    (∀ p : Fin 4, t.usb[p].tc = .disabled) ∧
    (∀ p : Fin 32, safeMask s p = false → s.load[p].state ≠ .latched → t.load[p].state = .off) ∧ FusesKept s t ∧ t.tb = s.tb

/-- A control frame moves TB to the frame start and completes a frame of every running engine; policy and Warden frames do their
duties. CONTROL_FRAME, with nothing of standby due at its start, puts TB at the next multiple of the frame spacing, applies the
reference and the groups' modes due, closes the frame's minimum of the Ride, counts one frame and one report of each engine of 2
to 11 that runs it, and one missed frame of each that hangs. POLICY_FRAME writes the interrupt enables due, closes the load
means, raises the FAULT cause for a fault reaction at the head of Q9, slews the Ride's present target, and begins the ports once
after READY. WARDEN_FRAME serves the watchdog, writes theta to every channel, discards injections under the debug lock, and
turns a lone pending bit of a Note checker into a fault of the device with cause 0xFFFF. (01_architecture.md,
13_engines_rings_clocks.md, 02_ride_and_tiers.md, 12_thermal.md, 19_faults.md, 16_mailbox_protocol.md) -/
def Obligations.Frames : Prop :=
  ∀ s : State,
    (∀ (hung : BitVec 12) bank, s.tbRuns = true → standbyEdge s = s → Completes (.controlFrame hung bank) s fun t =>
      t.tb = nextFrame s ∧ t.lastFrame = some (nextFrame s) ∧
      (s.tb.toNat < 2 ^ 63 → (nextFrame s).toNat % frameStep s = 0 ∧ s.tb.toNat ≤ (nextFrame s).toNat) ∧
      t.clk.crystal = (s.clk.crystal && !s.clk.switchDue) ∧ t.clk.switchDue = false ∧
      (∀ g : Fin 4, t.group[g].lowPower = s.group[g].lowPend.getD s.group[g].lowPower ∧ t.group[g].lowPend = none) ∧
      t.ride.frameMin = s.ride.vMin.getD s.ride.v ∧ t.ride.vMin = none ∧
      (∀ e : Fin 12, 2 ≤ e.val → engineUp s e = true →
        (hung.getLsbD e.val = false → t.eng[e].frames = s.eng[e].frames + 1 ∧ t.eng[e].repSeq = s.eng[e].repSeq + 1 ∧
          (wardenRuns s = true → t.eng[e].missed = 0)) ∧
        (hung.getLsbD e.val = true → t.eng[e].repSeq = s.eng[e].repSeq ∧ t.eng[e].halted = false ∧
          (wardenRuns s = true → t.eng[e].missed = s.eng[e].missed + 1 ∧ t.eng[e].frames = 0))) ∧
      (∀ e : Fin 12, (e.val < 2 ∨ s.eng[e].running = false ∨ s.eng[e].failed = true ∨ s.eng[e].retained = true) → t.eng[e] = s.eng[e]) ∧
      (∀ c : Fin 16, t.chan[c].fPeriods = 0 ∧ t.chan[c].fBound = 0 ∧ t.chan[c].fPeak = false) ∧
      t.stby.window = s.stby.window.map (· - 1) ∧ t.dev = s.dev ∧ t.par = s.par ∧ t.otp = s.otp) ∧
    (∀ host, s.mbox.ready = true → s.eng[(0 : Fin 12)].halted = false → (deviceRuns s = true ∨ s.dev = .deviceStop) →
      Completes (.policyFrame host) s fun t =>
        t.aon.reed2sDue = false ∧ t.host.irqDue = false ∧ t.host.alertDue = false ∧
        (deviceRuns s = true → t.mbox.portsDue = false) ∧
        (s.host.irqDue = true → t.host.irqEn = BitVec.ofInt 13 (param s 0x20)) ∧
        (s.host.alertDue = true → t.host.alertEn = BitVec.ofInt 13 (param s 0x21)) ∧
        (∀ p : Fin 32, t.load[p].vPol = s.load[p].v.close.mean ∧ t.load[p].iPol = s.load[p].i.close.mean) ∧
        (s.mbox.portsDue = false → s.ride.released = true → 0 ≤ param s 0x201 → t.ride.present = slewTarget s) ∧
        (∀ bs, headEntry 9 0 s = some ⟨bs, true⟩ → s.fc.inject = [] → byteAt bs 0 ∈ ([0, 2, 4] : List Byte) →
          t.host.intPend.getLsbD 4 = true)) ∧
    (wardenRuns s = true → Completes .wardenFrame s fun t =>
      t.warden.fedTb = s.tb ∧ t.therm.theta = thetaNow s ∧ (∀ c : Fin 16, t.chan[c].theta = thetaNow s) ∧
      (s.wires.debugLock = true → t.fc.inject = []) ∧
      (∀ c : Fin 64, s.fc.pend = 1#64 <<< c.val → findFault s (byte c.val) 0 0 = none → s.warden.standing.length < 480 →
        classOf s { checker := byte c.val, unitKind := 0, unitIdx := 0, cause := 0xFFFF } = some .note →
        t.fc.pend.getLsbD c.val = false ∧ ∃ f ∈ t.warden.standing, f.rep.checker = byte c.val ∧ f.rep.unitKind = 0 ∧ f.rep.unitIdx = 0 ∧
          f.rep.cause = 0xFFFF ∧ f.cls = .note ∧ f.occ = 1))

/-- Triggers, sets, records, urgent requests, calibration and checks of the Assay go as chapter 11 says. A trigger that falls
counts and makes its entry wait, or counts a miss of a busy one; a free group starts the lowest waiting entry, with an urgent
request first; a set's end pushes its record and its results are taken; an urgent request aborts a young plain set, which
samples again with its entry and count; with no injection armed, a calibration within the windows moves gain one eighth of the
way, and a converter or an input fails at the second failed check in succession. (11_assay.md) -/
def Obligations.AssaySetsRun : Prop :=
  ∀ (g : Fin 4) (s : State),
    (∀ (n : Fin 60) (e : Fin 64) after, e = fin64 n.val → assayRuns s g = true → triggerFalls s g e after = true →
      s.group[g].entries[e].suspended = false → (s.dev = .standby → s.group[g].entries[e].standby = true) →
      Completes (.assayTrigger g n after) s fun t => ∃ y, t = onGroup g (fun _ => y) { s with tb := stampAt s after } ∧
        y.entries[e].count = s.group[g].entries[e].count + 1 ∧ (∀ k : Fin 64, k ≠ e → y.entries[k] = s.group[g].entries[k]) ∧
        (entryBusy s.group[g] e = true → y.entries[e].missed = true ∧ y.entries[e].miss = s.group[g].entries[e].miss.bump ∧
          y.waiting = s.group[g].waiting) ∧
        (entryBusy s.group[g] e = false → y.waiting = s.group[g].waiting ++ [e] ∧ y.entries[e].miss = s.group[g].entries[e].miss)) ∧
    (∀ (n : Fin 60) after, triggerFalls s g (fin64 n.val) after = false → exec (.assayTrigger g n after) s = .next s) ∧
    (∀ (e : Fin 64) after, assayRuns s g = true → s.group[g].running = none → s.group[g].aborted = none → s.group[g].urgent = [] →
      s.group[g].remain = none → kOf s g ≠ 0 → e ∈ startable s g → (∀ d ∈ startable s g, e ≤ d) → followers s g e = [] →
      Completes (.assaySetStart g after) s fun t => t.tb = stampAt s after ∧
        t.group[g].running = some { setOf s g e false with start := stampAt s after } ∧ e ∉ t.group[g].waiting ∧
        (∀ h : Fin 4, h ≠ g → t.group[h] = s.group[h]) ∧ { t with group := s.group, tb := s.tb } = s) ∧
    (∀ (u : Urgent) after, assayRuns s g = true → s.group[g].running = none → s.group[g].urgent = [u] → kOf s g ≠ 0 →
      u.inputs.length ≤ kOf s g → Completes (.assaySetStart g after) s fun t =>
        t.group[g].urgent = [] ∧ t.group[g].running.map (·.inputs) = some u.inputs ∧
        t.group[g].running.map (·.entry) = some (if u.hardware then 63 else 62) ∧ t.group[g].remain = s.group[g].remain ∧
        t.group[g].waiting = s.group[g].waiting) ∧
    (∀ r codes, s.group[g].running = some r → s.fc.inject = [] → 1 ≤ credit (groupRing g) s.ring[groupRing g] →
      Completes (.assaySetComplete g codes 0) s fun t => t.group[g].running = none ∧
        (r.rest ≠ [] → t.group[g].remain = some r) ∧ t.ring[groupRing g].p = s.ring[groupRing g].p + 1 ∧
        (∃ fl, t.ring[groupRing g].entries =
          s.ring[groupRing g].entries ++ [⟨recordBytes (slotsOf s g r codes) r.start r.entry r.count fl, true⟩]) ∧
        (∀ (p : Fin 8) (c0 : Fin 16) (cs : List (Fin 16)) (code : BitVec 12), g = 0 → r.inputs = [fin48 p.val] → codes = [code] →
          r.convs = c0 :: cs → s.conv[c0].healthy = true → s.group[g].failedIn.getLsbD p.val = false →
          t.src[p] = { s.src[p] with v := s.src[p].v.add (uni 90000 (corrected s.conv[c0] code).1) }) ∧ t.fc = s.fc) ∧
    (∀ hw m is port r, assayRuns s g = true → s.group[g].urgent = [] → is.length ≤ kOf s g →
      (hw = true → hardwareInputs g is = true) → is.all (fun i => inputDefined g i.val) = true → s.group[g].running = some r →
      (Completes (.urgentRequest g hw m is port true) s fun t => t.group[g] = { s.group[g] with urgent := [⟨hw, m, is, port⟩] }) ∧
      (r.entry.val < 62 → partners s g r Group.running = [] → Completes (.urgentRequest g hw m is port false) s fun t =>
        t.group[g] = { s.group[g] with urgent := [⟨hw, m, is, port⟩], running := none, aborted := some { r with restarted := true } })) ∧
    (∀ r, s.group[g].aborted = some r → s.group[g].running = none → s.group[g].urgent = [] → r.inputs.length ≤ kOf s g →
      partners s g r Group.aborted = [] → Completes (.assaySetRestart g) s fun t => t.group[g].aborted = none ∧
        t.group[g].running = some { r with convs := healthyConvs s g, restarted := true, start := s.tb } ∧ { t with group := s.group } = s) ∧
    (∀ (c : Fin 16) r0 r1 r2, convGroup c = g → assayRuns s g = true → calibrationDue s c = true → s.fc.inject = [] → s.conv[c].healthy = true →
      refOk 0 (corrected s.conv[c] r0).1 = true → refOk 2048 (corrected s.conv[c] r1).1 = true →
      refOk (18432 / 5) (corrected s.conv[c] r2).1 = true → (r0.toNat : Q) ≠ r2.toNat →
      Completes (.backgroundCalibration c r0 r1 r2) s fun t =>
        t.conv[c].gain = s.conv[c].gain + ((18432 / 5) / ((r2.toNat : Q) - r0.toNat) - s.conv[c].gain) / 8 ∧
        t.conv[c].healthy = true ∧ (∀ d : Fin 16, d ≠ c → t.conv[d] = s.conv[d]) ∧
        t.ring[groupRing g].p = s.ring[groupRing g].p + 3) ∧
    (∀ (codes : List (List (BitVec 12))) (c : Fin 16), convGroup c = g → s.fc.inject = [] → s.clk.vcc = true → wardenRuns s = true →
      captureRuns s g = false → passed s s.group[g].checkTb (wardenKey s 0x801 : Q) = true → s.conv[c].healthy = true → Completes (.converterCheck g codes) s fun t =>
        (checkPasses s.conv[c] (codes.getD (c.val % 4) []) = true → t.conv[c].healthy = true ∧ t.conv[c].fails = 0) ∧
        (checkPasses s.conv[c] (codes.getD (c.val % 4) []) = false → s.conv[c].fails = 0 → t.conv[c].healthy = true ∧ t.conv[c].fails = 1) ∧
        (checkPasses s.conv[c] (codes.getD (c.val % 4) []) = false → 1 ≤ s.conv[c].fails → t.conv[c].healthy = false)) ∧
    (∀ (i : Fin 48) code c cs, s.fc.inject = [] → s.clk.vcc = true → wardenRuns s = true → captureRuns s g = false →
      passed s s.group[g].pathTb (pathSlot s g) = true → i = s.group[g].pathNext → healthyConvs s g = c :: cs →
      s.group[g].failedIn.getLsbD i.val = false → Completes (.pathCheck g code) s fun t => t.group[g].pathNext = pathAfter g i ∧
        ((((corrected s.conv[c] code).1 : Q) - 2048).abs ≤ 16 → t.group[g].pathFails.getLsbD i.val = false ∧ t.group[g].failedIn = s.group[g].failedIn) ∧
        (16 < (((corrected s.conv[c] code).1 : Q) - 2048).abs → s.group[g].pathFails.getLsbD i.val = false →
          t.group[g].pathFails.getLsbD i.val = true ∧ t.group[g].failedIn = s.group[g].failedIn) ∧
        (16 < (((corrected s.conv[c] code).1 : Q) - 2048).abs → s.group[g].pathFails.getLsbD i.val = true →
          t.group[g].failedIn.getLsbD i.val = true))

/-- A ring period's boundary senses the Ride, takes what was written for it, and runs the outer loop within its clamps. Under
VCC the Ride's voltage and its minimum are taken, the VDRV regulator follows it, and Taproot's gate turns on again when the Ride
falls below TAP_BAT. A channel that neither switches nor tracks a stop notes the broken frame and nothing else; under a stop in
both directions its loop follows the zeroed output; an off command takes effect. One that switches, with no count at its limit,
takes its committed coefficients and frequency, steps its mode, counts the period it ends and the current-limited ones in
succession or zeroes the count, asserts the rest hold that is due, plans the duties of its phases by the law of the mode within
the bounds of R75, and its output lies on or above the lower clamp; it does not switch while the Ride's delivery stop holds on a
channel that feeds it. (03_phases_and_gate_drive.md, 04_control_loops.md, 05_limits_and_phase_loss.md, 02_ride_and_tiers.md) -/
def Obligations.RingBoundary : Prop :=
  ∀ (c : Fin 16) (m : PeriodSample) (s : State), s.clk.vcc = true → (s.chan[c].restHold = true → s.ride.th.vUN ≤ m.vRide) →
    (feedsRide s c = true → s.ride.ovStop = true → switching s c = false) ∧
    (Completes (.ringPeriodBoundary c m) s fun t =>
      t.ride.v = m.vRide ∧ t.ride.vMin = some (min (s.ride.vMin.getD m.vRide) m.vRide) ∧ t.clk.feed = vdrvFeed s m.vRide ∧
      t.tap.vBat = m.tapBat.getD s.tap.vBat ∧ (∀ b, m.tapBat = some b → m.vRide < b → t.tap.blocking = false) ∧
      t.tap.state = s.tap.state ∧
      ((chanLow s c ≠ c ∨ s.chan[c].offDue = false ∧ switching s c = false ∧ tracksZero s c = false) →
        t.chan[c] = { s.chan[c] with fBroken := true } ∧ (∀ d : Fin 16, d ≠ c → t.chan[d] = s.chan[d]) ∧ t.phase = s.phase ∧ t.free = s.free) ∧
      (chanLow s c = c → s.chan[c].offDue = false → switching s c = false → tracksZero s c = true →
        t.chan[c].u = 0 ∧ t.chan[c].uOut = 0 ∧ t.chan[c].fBroken = true ∧ t.chan[c].coefPend = s.chan[c].coefPend ∧
        ∀ d : Fin 16, d ≠ c → t.chan[d] = s.chan[d]) ∧
      (chanLow s c = c → s.chan[c].offDue = true → ∀ d ∈ chanGang s c, t.chan[d].offByCmd = true ∧ t.chan[d].offDue = false ∧
        t.chan[d].u = 0 ∧ t.chan[d].uOut = 0 ∧ t.chan[d].trans.suspended = true) ∧
      (chanLow s c = c → s.chan[c].offDue = false → switching s c = true → waitingPhases s c = [] → hiccupDue s c = false →
        (∀ k ∈ healthyPhases s c, dueCause s.phase[k] = none) → annRunning s.chan[c].ann.state = false → s.chan[c].revCount = 0 →
        t.chan[c].coef = (if unstopped s.chan[c] then s.chan[c].coefPend.getD s.chan[c].coef else s.chan[c].coef) ∧
        t.chan[c].coefPend = (if unstopped s.chan[c] then none else s.chan[c].coefPend) ∧
        t.chan[c].fsw = (if unstopped s.chan[c] then s.chan[c].fswPend.getD s.chan[c].fsw else s.chan[c].fsw) ∧
        t.chan[c].fswPend = (if unstopped s.chan[c] then none else s.chan[c].fswPend) ∧ t.chan[c].fresh = false ∧
        t.chan[c].rhoHist = (m.vPort / m.vRide :: s.chan[c].rhoHist).take 4 ∧
        t.chan[c].mode = (if s.chan[c].fresh then startMode (meanQ t.chan[c].rhoHist) else nextMode s.chan[c].mode (meanQ t.chan[c].rhoHist)) ∧
        t.chan[c].restHold = (s.chan[c].restHold || s.chan[c].restDue) ∧ t.chan[c].restDue = false ∧
        (s.chan[c].fresh = false → t.chan[c].fPeriods = s.chan[c].fPeriods + 1 ∧
          t.chan[c].limCount = (if (healthyPhases s c).any (fun k => s.phase[k].peakNow) then s.chan[c].limCount + 1 else 0) ∧
          ∀ k ∈ healthyPhases s c, t.phase[k].peakNow = false) ∧
        (∀ k ∈ healthyPhases s c, (t.phase[k].d1, t.phase[k].d2) =
          applied t.chan[c].mode m.vPort m.vRide (periodTime t.chan[c].period) s.chan[c].ann.pert) ∧
        (c.val < 12 → isUsbSource s c = false → 0 ≤ t.chan[c].uOut) ∧ t.chan[c].hic = s.chan[c].hic ∧
        (∀ d : Fin 16, d ≠ c → t.chan[d] = s.chan[d]) ∧ t.fc = s.fc ∧ t.usb = s.usb ∧ t.src = s.src ∧
        (s.chan[c].restDue = false → t.bat = s.bat)))

/-- Peak limits, hiccups, retry latches, phase failures and driver under-voltages act as chapters 3 to 5 say. PEAK_LIMIT past
the blanking time marks its phase and ends its energising interval; HICCUP at N_HIC turns the channel off with one more retry,
or latched with its stop once the retries are spent, counted and reported; its off-time ends in Soft-start, or in its wait while
a stop holds; soft-start ends in Switching, and a quiet minute clears the retries; a phase whose count is at its limit leaves
its ring, the last of a ring stops the channel, and its probation's end closes its fault; a pinned edge code, a low VDRV and a
run-out transition timer are reported; a low VDRV holds every gate off until it recovers, a low bootstrap supply its leg's.
(05_limits_and_phase_loss.md, 03_phases_and_gate_drive.md, 04_control_loops.md) -/
def Obligations.LimitsAndPhaseLoss : Prop :=
  ∀ (c : Fin 16) (k : Fin 28) (s : State),
    (∀ (l : Fin 16) pos still, l = chanLow s (chanOfPhase k) → switching s l = true → s.phase[k].populated = true →
      s.phase[k].healthy = true → supplied s.phase[k] = true → annRunning s.chan[l].ann.state = false →
      ((inBlanking s.chan[l] s.phase[k] pos.toNat = false ∨ still = true) → Completes (.peakLimit k pos still) s fun t =>
        t.phase[k] = { s.phase[k] with peakNow := true, gates := deEnergised s.chan[l].mode (flowsToRide s l) } ∧
        (∀ j : Fin 28, j ≠ k → t.phase[j] = s.phase[j]) ∧ t.chan[l].counter = pos ∧ t.chan[l].uOut = s.chan[l].uOut ∧ t.fc = s.fc ∧
        { t with phase := s.phase, chan := s.chan } = s) ∧
      (inBlanking s.chan[l] s.phase[k] pos.toNat = true →
        exec (.peakLimit k pos false) s = .next (onChan l (fun h => { h with counter := pos }) s))) ∧
    (hiccupDue s c = true → chanLow s c = c → s.chan[c].ann.state ≠ .verifying →
      (∀ j ∈ healthyPhases s c, dueCause s.phase[j] = none) →
      Completes (.hiccup c) s fun t => t.chan[c].hicCnt = s.chan[c].hicCnt.bump ∧ t.chan[c].uOut = 0 ∧ switching t c = false ∧
        t.chan[c].limCount = 0 ∧ Captures s t 0x11 5 c.val 0 ∧
        (s.chan[c].retry < s.chan[c].lim.nRet → t.chan[c].hic = .off ∧ t.chan[c].retry = s.chan[c].retry + 1 ∧ t.chan[c].stops = s.chan[c].stops) ∧
        (s.chan[c].lim.nRet ≤ s.chan[c].retry → t.chan[c].hic = .latched ∧ t.chan[c].retry = s.chan[c].retry ∧
          t.chan[c].stops.contains .latch = true) ∧
        (isUsbSource s c = true → t.usb[fin4 (c.val - 8)].hicHit = true)) ∧
    (hiccupDue s c = false → exec (.hiccup c) s = .next s) ∧
    (∀ v, s.chan[c].hic = .off → s.chan[c].offByCmd = false → chanLow s c = c →
      (s.chan[c].enabled = true → released s c = true → waitingPhases s c = [] → Completes (.hiccupOffTimeEnd c v) s fun t =>
        t.chan[c].hic = .softStart ∧
        t.chan[c].enabled = true ∧ t.chan[c].fresh = true ∧ t.chan[c].integ = 0 ∧ t.chan[c].ramp = 0 ∧
        (c.val < 12 → t.chan[c].refOut = v ∧ t.chan[c].refTarget = s.chan[c].refTarget) ∧
        ∀ d : Fin 16, d ≠ c → t.chan[d] = s.chan[d]) ∧
      (s.chan[c].enabled = true → released s c = false →
        exec (.hiccupOffTimeEnd c v) s = .next (onChan c (fun h => { h with waits := true }) s)) ∧
      (s.chan[c].enabled = false →
        exec (.hiccupOffTimeEnd c v) s = .next (onChan c (fun h => { h with hic := .switching, waits := false }) s))) ∧
    (s.chan[c].hic = .softStart → exec (.softStartComplete c) s = .next (onChan c (fun h => { h with hic := .switching, ramp := 1 }) s)) ∧
    (s.chan[c].hic = .switching → exec (.retryResetInterval c) s = .next (onChan c (fun h => { h with retry := 0 }) s)) ∧
    (∀ cause : BitVec 3, s.phase[k].populated = true → s.phase[k].healthy = true → cause.toNat ≤ 5 →
      causeDue s.phase[k] cause.toNat = true → Completes (.phaseFailure k cause) s fun t =>
      t.phase[k].healthy = false ∧ t.phase[k].probation = 0 ∧ (∀ j : Fin 28, j ≠ k → t.phase[j] = s.phase[j]) ∧
      Captures s t 0x10 6 k.val cause.toNat ∧ nHealthy t (chanOfPhase k) < nHealthy s (chanOfPhase k) ∧
      (nHealthy t (chanLow s (chanOfPhase k)) = 0 → t.chan[chanOfPhase k].stops.contains .lastPhase = true ∧ switching t (chanOfPhase k) = false)) ∧
    (∀ cause : BitVec 3, causeDue s.phase[k] cause.toNat = false → exec (.phaseFailure k cause) s = .next s) ∧
    (s.phase[k].healthy = true → s.phase[k].probation = 1 → Completes (.probationComplete k) s fun t =>
      t.phase[k] = { s.phase[k] with probation := 0 } ∧ (∀ j : Fin 28, j ≠ k → t.phase[j] = s.phase[j]) ∧
      (∀ f, findFault s 0x10 6 (byte k.val) = some f → f ∉ t.warden.standing) ∧ ∀ f ∈ t.warden.standing, f ∈ s.warden.standing) ∧
    (∀ e : Fin 4, s.phase[k].notReached.getLsbD e.val = false →
      (256 ≤ s.phase[k].pinned[e] → Completes (.profileNotReached k e) s fun t =>
        t.phase[k] = { s.phase[k] with notReached := putBit s.phase[k].notReached e.val true } ∧
        (∀ j : Fin 28, j ≠ k → t.phase[j] = s.phase[j]) ∧ Captures s t 0x18 6 k.val e.val) ∧
      (s.phase[k].pinned[e] < 256 → exec (.profileNotReached k e) s = .next s)) ∧
    (∀ v, s.clk.vdrvOk = true → Completes (.vdrvUndervoltage v) s fun t => t.clk.vdrvOk = false ∧ t.clk.vdrvLow = true ∧
      (∀ d : Fin 16, switching t d = false ∧ t.chan[d].trans.suspended = true) ∧ Captures s t 0x17 0 0 0) ∧
    ((s.dev = .deviceStop ∨ s.clk.vdrvOk = true) → exec .vdrvRecovery s = .next { s with clk := { s.clk with vdrvLow := false } }) ∧
    (∀ w, s.dev ≠ .deviceStop → s.clk.vdrvOk = false → w = { s with clk := { s.clk with vdrvOk := true, vdrvLow := false } } →
      Completes .vdrvRecovery s fun t => { t with chan := w.chan } = w ∧
        (∀ d : Fin 16, d.val < 12 → chanLow s d = d → switching w d = true →
          t.chan[d].refOut = portVolt s d ∧ t.chan[d].refTarget = s.chan[d].refTarget) ∧
        ∀ d : Fin 16, (12 ≤ d.val ∨ switching w d = false) → t.chan[d] = s.chan[d]) ∧
    (∀ leg, Completes (.bootstrapUndervoltage k leg) s fun t => t.phase[k].bstRideUv = (s.phase[k].bstRideUv || leg) ∧
      t.phase[k].bstPortUv = (s.phase[k].bstPortUv || !leg) ∧
      (leg = true → t.phase[k].gates = s.phase[k].gates.filter (fun x => x ≠ .hg2 && x ≠ .lg2)) ∧
      (leg = false → t.phase[k].gates = s.phase[k].gates.filter (fun x => x ≠ .hg1 && x ≠ .lg1)) ∧
      t.chan = s.chan ∧ ∀ j : Fin 28, j ≠ k → t.phase[j] = s.phase[j]) ∧
    (s.chan[c].trans.running = true → s.chan[c].trans.suspended = false → switching s c = true → isUsbSource s c = false →
      Completes (.transitionTimerExpiry c) s fun t => t.chan[c].trans.running = false ∧ Captures s t 0x19 5 c.val 0 ∧
        ∀ d : Fin 16, d ≠ c → t.chan[d] = s.chan[d])

/-- An Annealing run goes from its grant through injection, fit and verification, or ends with the earlier set. A run whose turn
it is turns dither off and prepares; deferred for 60 s it only tells; 10 ms later the injection begins from its seed and ends
after its whole sequences; a passed fit within the ranges commits the set that the recipe finds with the earlier kept, or ends
the run as failed where it finds none; a first failed fit is retried, a second ends the run and is reported with cause 0; a
verification of 50 ms within its limits keeps the model, one beyond them commits the earlier set again and is reported with
cause 1. (04_control_loops.md) -/
def Obligations.AnnealingRuns : Prop :=
  ∀ (c : Fin 16) (s : State),
    (annTurn s c = true → Completes (.annealingGrant c) s fun t => t.chan[c].ann.state = .preparing ∧ t.chan[c].ditherOff = true ∧
        t.chan[c].ann.prepPp = 0 ∧ t.chan[c].ann.stateTb = s.tb ∧ t.chan[c].coef = s.chan[c].coef ∧
        (∀ d : Fin 16, d ≠ c → t.chan[d] = s.chan[d]) ∧ { t with chan := s.chan } = s) ∧
    (annTurn s c = false → exec (.annealingGrant c) s = .next s) ∧
    (s.chan[c].ann.state = .waiting → msCounts 60000 ≤ since s s.chan[c].ann.deferTb → Completes (.annealingDeferred c) s fun t =>
      UnitsKept (onChan c (fun h => { h with ann := { h.ann with deferTb := s.tb } }) s) t ∧
      Tells s t 0x0211 [byte c.val, trigCode s.chan[c].ann.trigger]) ∧
    (s.chan[c].ann.state = .preparing → msCounts 10 ≤ since s s.chan[c].ann.stateTb → exec (.annealingInjectionStart c) s =
      .next (onChan c (fun h => { h with ann := { h.ann with state := .injecting, stateTb := s.tb, chips := 0, lfsr := prbsStart c } }) s)) ∧
    (s.chan[c].ann.state = .injecting → chipsTotal s.chan[c].fsw ≤ s.chan[c].ann.chips → exec (.annealingInjectionEnd c) s =
      .next (onChan c (fun h => { h with ditherOff := false, ann := { h.ann with state := .fitting, pert := 0, stateTb := s.tb } }) s)) ∧
    (∀ rs m, s.chan[c].ann.state = .fitting → m = (fitOf s c rs).1 → fitOk (fitOf s c rs) = true →
      Completes (.annealingFitComplete c rs) s fun t =>
      t.chan[c].coef = s.chan[c].coef ∧ (∀ d : Fin 16, d ≠ c → t.chan[d] = s.chan[d]) ∧
      ((recipeFor s c m false).isSome = true → t.chan[c].ann.state = .applying ∧ t.chan[c].coefPend = some (coefFor s c m false).1 ∧
        t.chan[c].origin = 2 ∧ t.chan[c].ann.prev = some (s.chan[c].coefPend.getD s.chan[c].coef, s.chan[c].plant) ∧
        { t with chan := s.chan } = s) ∧
      (recipeFor s c m false = none → t.chan[c].ann.state = .idle ∧ t.chan[c].coefPend = s.chan[c].coefPend ∧
        t.chan[c].origin = s.chan[c].origin ∧ Captures s t 0x1A 5 c.val 0)) ∧
    (∀ rs, s.chan[c].ann.state = .fitting → fitOk (fitOf s c rs) = false →
      (s.chan[c].ann.retried = false → exec (.annealingFitComplete c rs) s =
        .next (onChan c (fun h => { h with ann := { h.ann with retried := true } }) s)) ∧
      (s.chan[c].ann.retried = true → Completes (.annealingFitComplete c rs) s fun t => t.chan[c].ann.state = .idle ∧
        t.chan[c].ditherOff = false ∧ t.chan[c].coefPend = s.chan[c].coefPend ∧ t.chan[c].origin = s.chan[c].origin ∧
        Captures s t 0x1A 5 c.val 0)) ∧
    (s.chan[c].ann.state = .verifying → msCounts 50 ≤ since s s.chan[c].ann.stateTb →
      (s.chan[c].ann.verPp ≤ max (3 * s.chan[c].ann.prepPp) (5 / 100 * flowLimit s c) →
        Completes (.annealingVerificationEnd c) s fun t => t.chan[c].ann.state = .idle ∧ t.chan[c].ann.done = s.tb ∧
          t.chan[c].ann.model = some (s.chan[c].ann.cand.getD (nominalPlant s c)) ∧ t.chan[c].coefPend = s.chan[c].coefPend ∧
          t.fc = s.fc ∧ ∀ d : Fin 16, d ≠ c → t.chan[d] = s.chan[d]) ∧
      (max (3 * s.chan[c].ann.prepPp) (5 / 100 * flowLimit s c) < s.chan[c].ann.verPp →
        Completes (.annealingVerificationEnd c) s fun t => t.chan[c].ann.state = .idle ∧
          (∀ k, s.chan[c].ann.prev = some k → t.chan[c].coefPend = some k.1 ∧ t.chan[c].plant = k.2 ∧ t.chan[c].origin = s.chan[c].ann.prevOrigin) ∧
          Captures s t 0x1A 5 c.val 1 ∧ ∀ d : Fin 16, d ≠ c → t.chan[d] = s.chan[d]))

/-- Over-voltage, tiers, sheds, the target and Taproot change the Ride's state as chapter 2 says. An over-voltage stops
delivery, counted, reported and told, until its release; a tier change is told with its cause pending; a shed takes the touched
ports of its class off and counts them, a restore of the lowest class brings enabled ones to Soft-start; the target reached sets
the thresholds and releases the load ports. Taproot engages fast or cold below V_FM, blocks, releases, trips with its counter
and report, re-arms, and is held below TAP_UV; an input below its threshold or a reversed current withdraws a port: its channel
stops and the hand-over begins, which ends in Debounce or Absent. (02_ride_and_tiers.md, 10_load_ports.md) -/
def Obligations.RideAndTaproot : Prop :=
  ∀ s : State,
    (∀ v, s.clk.vcc = true → s.ride.ovStop = false → Completes (.rideOvervoltage v) s fun t =>
      UnitsKept { s with ride := { s.ride with ovStop := true, ovCnt := s.ride.ovCnt.bump }, clk := { s.clk with feed := vdrvFeed s v }, chan := t.chan } t ∧
      (∀ c : Fin 16, t.chan[c] = if feedsRide s c then { s.chan[c] with fBroken := true, trans := { s.chan[c].trans with suspended := true } }
        else s.chan[c]) ∧ (∀ c : Fin 16, feedsRide s c = true → switching t c = false) ∧ Captures s t 0x12 0 0 0 ∧
      Tells s t 0x0206 (quantU 2 (v / 10))) ∧
    (∀ w, s.ride.ovStop = true → w = { s with ride := { s.ride with ovStop := false } } → Completes .rideOvervoltageRelease s fun t =>
      { t with chan := w.chan } = w ∧
      ∀ c : Fin 16, (feedsRide s c = true → switching w c = true → t.chan[c].refOut = portVolt s c ∧ t.chan[c].refTarget = s.chan[c].refTarget) ∧
        ((feedsRide s c = false ∨ switching w c = false) → t.chan[c] = s.chan[c])) ∧
    (s.ride.ovStop = false → exec .rideOvervoltageRelease s = .next s) ∧
    (∀ k : Fin 5, k ≠ s.ride.tier → Completes (.tierChange k) s fun t => UnitsKept { s with ride := { s.ride with tier := k } } t ∧
      t.fc = s.fc ∧ (s.mbox.ready = true → t.host.intPend.getLsbD 11 = true)) ∧
    (∀ k : Fin 8, s.clk.vcc = true → s.ride.shed.getLsbD k.val = false → Completes (.loadShed k) s fun t =>
      t.ride = { s.ride with shed := putBit s.ride.shed k.val true } ∧
      (∀ p : Fin 32, shedTouches s k p = true → (t.load[p].state = .off ∨ t.load[p].state = .latched) ∧
        t.load[p].cShed = s.load[p].cShed.bump) ∧
      (∀ p : Fin 32, shedTouches s k p = false → t.load[p].cShed = s.load[p].cShed) ∧
      (∀ p : Fin 4, s.usb[p].source = true → s.usb[p].tc = .attSrc → s.usb[p].cls = k →
        t.usb[p].shed = true ∧ switching t (chanOfUsb p) = false) ∧ t.src = s.src ∧ t.bat = s.bat) ∧
    (∀ k : Fin 8, lowestShed s k = true → Completes (.shedRestore k) s fun t =>
      t.ride = { s.ride with shed := putBit s.ride.shed k.val false } ∧
      (∀ p : Fin 32, s.load[p].state = .off → loadEnabled { s with ride := t.ride } p = true → t.load[p].state = .softStart) ∧
      t.chan = s.chan ∧ t.usb = s.usb) ∧
    (s.mbox.ready = true → deviceRuns s = true → Completes .targetReached s fun t =>
      t.ride = { s.ride with present := finalTarget s, target := finalTarget s, th := tiersFor s (finalTarget s), released := true } ∧
      { t with ride := s.ride, load := s.load } = s) ∧
    (∀ vr vb, s.tap.state = .armed → tapAllowed s = true → vr < s.ride.th.vFM → (tapUv s = 0 ∨ s.tap.uvHold = false ∧ tapUv s ≤ vb) →
      Completes (.taprootEngage vr vb) s fun t => UnitsKept { s with chan := t.chan, stby := t.stby, tap := { s.tap with
        state := if vr < s.ride.th.vFM / 2 then .cold else .fast, active := decide (s.ride.th.vFM / 2 ≤ vr), blocking := false, vBat := vb } } t ∧
        (∀ c : Fin 16, t.chan[c] = if (tapPort s).map chanOfBat = some c then { s.chan[c] with fBroken := true } else s.chan[c]) ∧
        (s.dev = .standby → t.stby.exitDue.isSome = true) ∧
        Tells s t 0x0207 ((if vr < s.ride.th.vFM / 2 then 1 else 0) :: quantU 2 (vb / 10))) ∧
    (s.tap.state = .cold → exec .taprootColdRampEnd s = .next { s with tap := { s.tap with active := true } }) ∧
    (tapEngaged s = true → s.tap.active = true → exec .taprootBlock s = .next { s with tap := { s.tap with blocking := true } }) ∧
    (∀ vb, tapEngaged s = true → s.tap.active = true → s.tap.blocking = true → Completes (.taprootRelease vb) s fun t =>
      UnitsKept { s with tap := { s.tap with state := .armed, active := false, blocking := false, vBat := vb } } t ∧
      Tells s t 0x0208 (tapMode s :: quantU 2 (vb / 10))) ∧
    (∀ vb, tapEngaged s = true → Completes (.taprootOvercurrent vb) s fun t =>
      UnitsKept { s with tap := { s.tap with state := .tripped, active := false, blocking := false, vBat := vb, trips := s.tap.trips.bump } } t ∧
      Captures s t 0x13 0 0 0 ∧ Tells s t 0x0209 (tapMode s :: quantU 2 (vb / 10))) ∧
    (s.tap.state = .tripped → exec .taprootRearm s = .next { s with tap := { s.tap with state := .armed } }) ∧
    (tapUv s ≠ 0 → Completes (.taprootUndervoltage true) s fun t => t.tap.uvHold = true ∧ tapEngaged t = false ∧ { t with tap := s.tap } = s) ∧
    exec (.taprootUndervoltage false) s = .next { s with tap := { s.tap with uvHold := false } } ∧
    (∀ (p : Fin 8) v, srcWithdrawable s p = true → (v < vWd s p ∨ reversedTwice s (chanOfSrc p) = true) → s.src[p].cWithdraw.hits = false →
      Completes (.sourceWithdrawal false p v) s fun t =>
      t.src[p].path = .withdrawing ∧ t.src[p].handover = true ∧ t.src[p].cWithdraw = s.src[p].cWithdraw.bump ∧ t.src[p].track = .none ∧
      t.chan[chanOfSrc p].enabled = false ∧ t.chan[chanOfSrc p].uOut = 0 ∧ (∀ r : Fin 8, r ≠ p → t.src[r] = s.src[r]) ∧
      Tells s t 0x0202 [0, byte p.val]) ∧
    (∀ (p : Fin 8) v, vWd s p ≤ v → reversedTwice s (chanOfSrc p) = false → exec (.sourceWithdrawal false p v) s = .next s) ∧
    (∀ (p : Fin 4) (q : Fin 8) v, q.val = p.val → (s.usb[p].path = .ramping ∨ s.usb[p].path = .delivering) → s.usb[p].handover = false →
      (v < usbWd s.usb[p] ∨ reversedTwice s (chanOfUsb p) = true) →
      Completes (.sourceWithdrawal true q v) s fun t => t.usb[p].path = .withdrawing ∧ t.usb[p].handover = true ∧ t.usb[p].redetect = true ∧
        t.chan[chanOfUsb p].enabled = false ∧ (∀ r : Fin 4, r ≠ p → t.usb[r] = s.usb[r]) ∧ t.src = s.src ∧ Tells s t 0x0202 [1, byte p.val]) ∧
    (∀ (p : Fin 4) (q : Fin 8) v, q.val = p.val → usbWd s.usb[p] ≤ v → reversedTwice s (chanOfUsb p) = false →
      exec (.sourceWithdrawal true q v) s = .next s) ∧
    (∀ (p : Fin 8) present, s.src[p].handover = true → Completes (.handoverComplete false p present) s fun t =>
      UnitsKept (onSrc p (fun x => { x with
        handover := false, present := present, path := if present && !s.src[p].blocked && srcActive s p then .debounce else .absent,
        pathTb := s.tb }) s) t ∧ Tells s t 0x0203 [0, byte p.val]) ∧
    (∀ (p : Fin 4) (q : Fin 8) present, q.val = p.val → s.usb[p].handover = true → Completes (.handoverComplete true q present) s fun t =>
      t.usb[p].handover = false ∧ t.src = s.src ∧ t.bat = s.bat ∧ ∀ r : Fin 4, r ≠ p → t.usb[r] = s.usb[r])

/-- A source port goes from presence through debounce, qualification or its sweep to Ramping and Delivering. A present input of
an active port debounces; lost, it is Absent from Debounce and withdrawn from a live state; debounced for 50 ms it qualifies,
with the sweep where its class is unknown; after its 250 ms a failed check makes it Absent, blocked at the third in succession,
a passed one stores V_OC and ramps it in; the sweep's observation of 10 s is followed by the down-sweep, which ends in the class
of the table "Classification rules" or undetermined; ramped in, it delivers in its class's tracking state; over V_QMAX its stop
holds until the release. (06_sources_and_tracking.md) -/
def Obligations.SourcePortsQualify : Prop :=
  ∀ (p : Fin 8) (s : State),
    (srcActive s p = true → s.src[p].path = .absent → s.src[p].handover = false → s.src[p].blocked = false →
      exec (.inputPresent p) s = .next (wantRunning 1 (onSrc p (fun x => { x with present := true, path := .debounce, pathTb := s.tb }) s))) ∧
    (s.src[p].path = .debounce → exec (.inputLost p) s = .next (onSrc p (fun x => { x with present := false, path := .absent }) s)) ∧
    ((s.src[p].path = .qualifying ∨ s.src[p].path = .ramping ∨ s.src[p].path = .delivering) → Completes (.inputLost p) s fun t =>
      t.src[p].path = .withdrawing ∧ t.src[p].handover = true ∧ t.src[p].present = false ∧ t.chan[chanOfSrc p].enabled = false) ∧
    (s.src[p].path = .debounce → srcActive s p = true → 5000000 ≤ (s.tb - s.src[p].pathTb).toNat →
      (srcClass s p ≠ 0 → Completes (.debounceComplete p) s fun t =>
        t.src[p] = { s.src[p] with path := .qualifying, pathTb := s.tb, qual := {} } ∧ t.chan = s.chan ∧
        (∀ k ∈ phasesOf (chanOfSrc p), t.phase[k].offset = 0) ∧ ∀ r : Fin 8, r ≠ p → t.src[r] = s.src[r]) ∧
      (srcClass s p = 0 → Completes (.debounceComplete p) s fun t => t.src[p].path = .qualifying ∧ t.src[p].sweeping = true ∧
        t.src[p].swp.stage = .observe ∧ t.src[p].swp.tb = s.tb ∧
        t.chan[chanOfSrc p].enabled = true ∧ t.chan[chanOfSrc p].refTarget = vWd s p + 1000 ∧ ∀ r : Fin 8, r ≠ p → t.src[r] = s.src[r])) ∧
    (s.src[p].path = .qualifying → s.src[p].sweeping = false → qualOver s p = true →
      (∀ k : Fin 5, qualVerdict s p = some k → s.src[p].cQualFail.hits = false → Completes (.qualificationComplete p) s fun t =>
        t.src[p].path = .absent ∧ t.src[p].qualFails = s.src[p].qualFails + 1 ∧ t.src[p].sweeping = false ∧
        t.src[p].blocked = decide (2 ≤ s.src[p].qualFails ∨ k = 0) ∧ t.src[p].cQualFail = s.src[p].cQualFail.bump ∧
        t.chan[chanOfSrc p].enabled = false ∧ Tells s t 0x0302 ([byte p.val, checkCode k.val] ++ le 2 (s.src[p].qualFails + 1 : Nat))) ∧
      (∀ vMax, qualVerdict s p = none → vMax = s.src[p].qual.v.max.getD 0 → Completes (.qualificationComplete p) s fun t =>
        t.src[p].path = .ramping ∧ t.src[p].vOc = vMax ∧ t.src[p].dcFloor = 9 / 10 * accMean s.src[p].qual.v ∧ t.src[p].qualFails = 0 ∧
        t.src[p].kCorr = 1 ∧
        t.chan[chanOfSrc p].enabled = true ∧ t.chan[chanOfSrc p].ramp = 0 ∧ t.chan[chanOfSrc p].refOut = s.src[p].v.last ∧
        (∀ k ∈ phasesOf (chanOfSrc p), t.phase[k].offset = accMean s.src[p].qual.i) ∧ (∀ r : Fin 8, r ≠ p → t.src[r] = s.src[r]) ∧
        Tells s t 0x0301 ([byte p.val, byte (srcClass s p)] ++ vField vMax))) ∧
    (qualOver s p = false → exec (.qualificationComplete p) s = .next s) ∧
    ((if 5 ≤ s.src[p].undet then 60000000000 else 6000000000) ≤ (s.tb - s.src[p].blockTb).toNat →
      exec (.qualificationBlockEnd p) s = .next (onSrc p (fun x => { x with blocked := false }) s)) ∧
    (s.src[p].path = .qualifying → s.src[p].sweeping = true → s.src[p].swp.stage = .observe →
      1000000000 ≤ (s.tb - s.src[p].swp.tb).toNat →
      (s.src[p].qual.bad = none → Completes (.classificationObservationEnd p) s fun t =>
        t.src[p] = { s.src[p] with dcFloor := 9 / 10 * s.src[p].vOc, swp := { s.src[p].swp with stage := .down } } ∧
        t.chan[chanOfSrc p].refOut = s.src[p].vOc ∧ t.chan[chanOfSrc p].refTarget = max (s.src[p].vOc / 2) (vWd s p + 1000) ∧
        ∀ r : Fin 8, r ≠ p → t.src[r] = s.src[r]) ∧
      (s.src[p].qual.bad ≠ none → Completes (.classificationObservationEnd p) s fun t => t.src[p].path = .absent ∧
        t.src[p].qualFails = s.src[p].qualFails + 1 ∧ t.chan[chanOfSrc p].enabled = false)) ∧
    (∀ k, s.src[p].path = .qualifying → s.src[p].sweeping = true → (s.src[p].swp.stage = .back ∨ s.src[p].swp.stopped = true) →
      k = classify s.src[p].vOc (pIdle s) s.src[p].swp →
      (k = 0 → Completes (.classDecided p) s fun t => t.src[p].path = .absent ∧
        t.src[p].blocked = true ∧ t.src[p].undet = s.src[p].undet + 1 ∧ t.src[p].cUndet = s.src[p].cUndet.bump ∧ t.src[p].found = s.src[p].found) ∧
      (k ≠ 0 → Completes (.classDecided p) s fun t => t.src[p].path = .ramping ∧ t.src[p].found = k ∧ t.src[p].undet = 0 ∧
        t.src[p].sweeping = false ∧ t.chan[chanOfSrc p].enabled = true)) ∧
    (s.src[p].path = .ramping → rampOver s (chanOfSrc p) = true → Completes (.rampingComplete false p) s fun t =>
      t.src[p].path = .delivering ∧ t.src[p].vIn = s.chan[chanOfSrc p].refTarget ∧
      t.src[p].track = (if srcClass s p = 1 then (if (keptLock s s.src[p]).isSome then .swell else .tracking)
        else if srcClass s p = 2 then .waveRunning else .dc) ∧
      { t with src := s.src } = s ∧ ∀ r : Fin 8, r ≠ p → t.src[r] = s.src[r]) ∧
    (∀ r : Fin 4, r.val = p.val → s.usb[r].path = .ramping → rampOver s (chanOfUsb r) = true →
      exec (.rampingComplete true p) s = .next (onUsb r (fun u => { u with path := .delivering }) s)) ∧
    (∀ v, srcEn s p = true → paramAt s 0x300 p.val ≠ 0 → s.clk.vcc = true → s.src[p].ovStop = false → s.src[p].cOv.hits = false →
      Completes (.sourceOvervoltageStop p v) s fun t => t.src[p] = { s.src[p] with ovStop := true, cOv := s.src[p].cOv.bump } ∧
        t.chan[chanOfSrc p].stops.contains .sourceOv = true ∧ switching t (chanOfSrc p) = false ∧ Captures s t 0x14 1 p.val 0 ∧
        Tells s t 0x0309 (byte p.val :: vField v) ∧ ∀ r : Fin 8, r ≠ p → t.src[r] = s.src[r]) ∧
    (∀ v, paramAt s 0x300 p.val = 0 → exec (.sourceOvervoltageStop p v) s = .next s) ∧
    (s.src[p].ovStop = true → Completes (.sourceOvervoltageRelease p) s fun t => t.src[p].ovStop = false ∧
      t.chan[chanOfSrc p].stops.contains .sourceOv = false ∧ ∀ r : Fin 8, r ≠ p → t.src[r] = s.src[r])

/-- Perturb and observe, Swell lock, scans, Idle and wave matching move a source port's reference as chapter 6 says. At the end
of T_PO a step keeps V_IN_REF within the bounds of R161 and writes it as the channel's target; a wave step turns its dither.
With a full window a second Swell evaluation that meets the criteria locks in Tracking, the first is remembered and in a scan
the lock is due at its end; the third evaluation under 0.35 loses the lock; a kept profile expires. A scan starts at its first
point and lands on a point better by 2 %, else where it began; Idle stops the channel, a trial starts it at 80 % of V_OC and
keeps it with twice P_IDLE. A wave cycle's end restarts its integrals with the match factor in its range; a pause writes a clamp
of 0 until the wave is back. (06_sources_and_tracking.md) -/
def Obligations.SourcePortsTrack : Prop :=
  ∀ (p : Fin 8) (s : State),
    (∀ pw now, s.src[p].path = .delivering → engineUp s (srcEngine p) = true → switching s (chanOfSrc p) = true → suspended s p = false →
      poFrames s ≤ s.src[p].poCount → meanHist (halfFrames s) s.src[p] = (pw, now) →
      ((s.src[p].track = .tracking ∨ s.src[p].track = .swell) → Completes (.perturbObserveStep p) s fun t =>
        t.src[p].pLast = pw ∧ t.chan[chanOfSrc p].refTarget = t.src[p].vIn ∧ t.src[p].vIn ≤ highBound s p ∧ t.src[p].poCount = 0 ∧
        (lowBound s p ≤ highBound s p → lowBound s p ≤ t.src[p].vIn) ∧ t.src[p].track = s.src[p].track ∧
        (lowBound s p ≤ highBound s p → s.src[p].vIn ≤ lowBound s p → t.src[p].dirUp = true) ∧
        (∀ r : Fin 8, r ≠ p → t.src[r] = s.src[r]) ∧ ∀ c : Fin 16, c ≠ chanOfSrc p → t.chan[c] = s.chan[c]) ∧
      (s.src[p].track = .waveRunning → Completes (.perturbObserveStep p) s fun t => t.src[p].dirUp = !s.src[p].dirUp ∧
        t.src[p].half = some now ∧ t.chan = s.chan ∧ ∀ r : Fin 8, r ≠ p → t.src[r] = s.src[r])) ∧
    (∀ (a : Nat → Q) (l : Nat), s.src[p].path = .delivering → srcClass s p = 1 → 1831 ≤ s.src[p].window.length →
      10 * windowMarked s.src[p] ≤ 1831 → 61 ≤ s.src[p].sinceEval → a = autoCorr (windowP s.src[p]) → l = lagStar a →
      (s.src[p].swell = none → 1 / 2 ≤ a l → 5 / 100 ≤ modDepth (windowP s.src[p]) → trackOption s p 0 = true →
        0 < swellPeriod (refineLag a l) →
        (s.src[p].swellOk = none → Completes (.swellEvaluation p) s fun t => t.src[p] = { s.src[p] with
          aLast := a l, sinceEval := 0, swellOk := some (swellPeriod (refineLag a l)), lockDue := none } ∧ t.chan = s.chan) ∧
        (∀ u, s.src[p].swellOk = some u → (swellPeriod (refineLag a l) - u).abs ≤ 5 / 100 * u →
          (s.src[p].track = .tracking → Completes (.swellEvaluation p) s fun t =>
            (t.src[p].swell.map fun w => (w.tSw, w.a, w.phase)) = some (swellPeriod (refineLag a l), a l, 0) ∧
            t.src[p].cSwell = s.src[p].cSwell.bump ∧ t.src[p].track = .swell ∧ t.src[p].vOp = 0 ∧ t.src[p].swellOk = none ∧
            t.src[p].sinceEval = 0) ∧
          (s.src[p].track = .scan → Completes (.swellEvaluation p) s fun t => t.src[p].swell = none ∧ t.src[p].track = .scan ∧
            t.src[p].lockDue = some (swellPeriod (refineLag a l), a l, modDepth (windowP s.src[p])) ∧ t.chan = s.chan))) ∧
      (∀ w, s.src[p].swell = some w → w.skipped < 30 → a l < 35 / 100 → 2 ≤ w.lowA → Completes (.swellEvaluation p) s fun t =>
        t.src[p].swell = none ∧ t.src[p].vOp = s.src[p].vIn ∧ (s.src[p].track = .swell → t.src[p].track = .tracking) ∧ t.chan = s.chan ∧
        Tells s t 0x0305 [byte p.val, Config.eventCode 0x0305 0])) ∧
    (s.src[p].path = .delivering → srcClass s p = 1 → trackOption s p 1 = true → (s.src[p].track = .tracking ∨ s.src[p].track = .swell) →
      suspended s p = false → switching s (chanOfSrc p) = true → scanReady s s.src[p] = true → Completes (.globalScan p) s fun t =>
        t.src[p] = { s.src[p] with scanBack := s.src[p].vIn, scanPow := (meanHist (poFrames s) s.src[p]).1, scanHold := 0, scanPts := [],
                                   scanTb := s.tb, prev := s.src[p].track, track := .scan } ∧
        t.chan[chanOfSrc p].refTarget = 95 / 100 * s.src[p].vOc ∧ ∀ r : Fin 8, r ≠ p → t.src[r] = s.src[r]) ∧
    (∀ v w, s.src[p].track = .scan → 32 ≤ s.src[p].scanPts.length → annHolds s p = false → scanBest s.src[p] = (v, w) →
      (s.src[p].lockDue = none → Completes (.scanEnd p) s fun t =>
        t.src[p].track = (if s.src[p].prev = .swell && s.src[p].swell.isSome then .swell else .tracking) ∧
        t.src[p].vIn = (if 102 / 100 * s.src[p].scanPow < w then v else s.src[p].scanBack) ∧
        t.chan[chanOfSrc p].refTarget = t.src[p].vIn ∧
        t.src[p].cScan = (if 102 / 100 * s.src[p].scanPow < w then s.src[p].cScan.bump else s.src[p].cScan)) ∧
      (∀ y, s.src[p].lockDue = some y → s.src[p].swell = none → Completes (.scanEnd p) s fun t => t.src[p].track = .swell ∧
        (t.src[p].swell.map (·.tSw)) = some y.1 ∧ t.src[p].lockDue = none ∧ t.src[p].cSwell = s.src[p].cSwell.bump ∧
        t.src[p].vIn = (if 102 / 100 * s.src[p].scanPow < w then v else s.src[p].scanBack))) ∧
    (s.src[p].track = .scan → s.src[p].scanPts.length < 32 → exec (.scanEnd p) s = .next s) ∧
    (s.src[p].path = .delivering → (s.src[p].track = .tracking ∨ s.src[p].track = .swell) → trackOption s p 2 = true →
      annHolds s p = false → switching s (chanOfSrc p) = true → 30000000 ≤ 256 * s.src[p].dim → Completes (.idleEntry p) s fun t =>
        t.src[p] = { s.src[p] with track := .idle, swell := none, trial := false, trialTb := none, idleTb := s.tb, lockDue := none } ∧
        t.chan[chanOfSrc p].enabled = false ∧ Tells s t 0x0307 (byte p.val :: vField s.src[p].vOc)) ∧
    (∀ v, s.src[p].track = .idle → s.src[p].trial = false → kappaAt s s.chan[chanOfSrc p].lim.order s.ride.v = 1 → annHolds s p = false →
      6000000000 ≤ (s.tb - s.src[p].idleTb).toNat →
      Completes (.idleTrial p v) s fun t => t.src[p].trial = true ∧ t.src[p].trialTb = none ∧ t.src[p].idleTb = s.tb ∧
        t.src[p].vIn = 8 / 10 * s.src[p].vOc ∧ t.src[p].kCorr = 1 ∧
        t.chan[chanOfSrc p].enabled = true ∧ t.chan[chanOfSrc p].refOut = v ∧ t.chan[chanOfSrc p].refTarget = 8 / 10 * s.src[p].vOc) ∧
    (∀ h, s.src[p].track = .idle → s.src[p].trial = true → annHolds s p = false → s.src[p].trialTb = some h →
      100000000 ≤ (s.tb - h).toNat →
      (2 * pIdle s ≤ accMean s.src[p].trialP → Completes (.idleTrialResult p) s fun t => t.src[p] = { s.src[p] with
          trial := false, trialTb := none, track := .tracking, vOp := s.src[p].vIn, pLast := 0, calm := 0, dim := 0, trackTb := s.tb } ∧
        t.chan = s.chan ∧ Tells s t 0x0308 (byte p.val :: vField s.src[p].vOc)) ∧
      (accMean s.src[p].trialP < 2 * pIdle s → Completes (.idleTrialResult p) s fun t =>
        t.src[p] = { s.src[p] with trial := false, trialTb := none } ∧ t.chan[chanOfSrc p].enabled = false)) ∧
    (s.src[p].track = .waveRunning → suspended s p = false → cycleOver s s.src[p] = true → Completes (.waveCycleEnd p) s fun t =>
      t.src[p].pInt = 0 ∧ t.src[p].eInt = 0 ∧ t.src[p].firstCycle = false ∧ t.src[p].cycleTb = s.tb ∧
      1 / 2 ≤ t.src[p].match_ ∧ t.src[p].match_ ≤ 2 ∧
      t.src[p].rg = (if s.src[p].rAcc.n = 0 then s.src[p].rg else s.src[p].rAcc.sum / s.src[p].rAcc.n) ∧ t.chan = s.chan) ∧
    (s.src[p].track = .waveRunning → waveLow s p = true → Completes (.wavePause p) s fun t => t.src[p].track = .wavePaused ∧
      (written t.chan[chanOfSrc p]).pos = 0 ∧ (suspended s p = true → t.src[p] = { s.src[p] with track := .wavePaused })) ∧
    (s.src[p].track = .wavePaused →
      (vWaveRun s p + 1000 ≤ s.src[p].v.last → Completes (.waveResume p) s fun t =>
        t.src[p] = { s.src[p] with track := .waveRunning, cycleTb := s.tb, eHist := [], eMax := 0 } ∧
        (written t.chan[chanOfSrc p]).pos = inputClamp s p) ∧
      (s.src[p].v.last < vWaveRun s p + 1000 → exec (.waveResume p) s = .next s)) ∧
    (s.src[p].kept.isSome = true → 30000000000 ≤ (s.tb - s.src[p].keptTb).toNat →
      (paramAt s 0x300 p.val ≠ 0 → Completes (.swellProfileExpiry p) s fun t => t.src[p].kept = none ∧ t.src[p].swell = none ∧
        t.src[p].vOp = s.src[p].vIn ∧ t.chan = s.chan ∧ Tells s t 0x0305 [byte p.val, Config.eventCode 0x0305 3]) ∧
      (paramAt s 0x300 p.val = 0 → exec (.swellProfileExpiry p) s = .next (onSrc p (fun x => { x with kept := none }) s)))

/-- A battery port qualifies, charges, rests, fits and terminates, and its discharge stops and returns, as chapter 7 says. At
the end of its 2 s a passed Qualification stores the segment count and routes the port, a failed one is counted with its charger
fault and waits 60 s, check 3 makes the port Dormant; a timer at its limit makes it Dormant in AON and reported; a pulse with
current enough or a probe sets a rest up, whose end awaits the fit and whose disturbance is counted; a failed fit doubles the
rest, two met fits in succession terminate the charge at 100 %; an equalise due, a long pause, a cut-off after 1 s and its end
after 10 s, a reserve's release and a primary's charge current act as their rules say. (07_charging.md, 08_cells.md) -/
def Obligations.BatteryCharging : Prop :=
  ∀ (p : Fin 4) (s : State),
    (∀ ok, s.bat[p].charge = .qualification → s.bat[p].qualWait = false → s.bat[p].qualRetry = false → batActive s p = true →
      ripe s.bat[p].qual.time 2 = true →
      (qualCheck s p ok = 0 → Completes (.batteryQualificationEnd p ok) s fun t => t.bat[p].charge = routeOf s p ∧
        t.bat[p].nSeg = s.bat[p].qual.count ∧ t.bat[p].timer = 0 ∧ t.bat[p].afterClear = false ∧ t.bat[p].qualCause = 0 ∧
        (segs s p = 0 → s.bat[p].accepted = none → t.bat[p].accepted = some s.bat[p].qual.count) ∧
        t.aon = s.aon ∧ ∀ r : Fin 4, r ≠ p → t.bat[r] = s.bat[r]) ∧
      (qualCheck s p ok ≠ 0 → Completes (.batteryQualificationEnd p ok) s fun t => t.bat[p].cQualFail = s.bat[p].cQualFail.bump ∧
        t.bat[p].faultWord.getLsbD 4 = true ∧ (ok = false → qualCheck s p ok = 2 → t.bat[p].qualCause = 1) ∧
        (qualCheck s p ok ≠ 3 → s.bat[p].afterClear = false → t.bat[p].charge = .qualification ∧ t.bat[p].qualRetry = true ∧ t.aon = s.aon) ∧
        (qualCheck s p ok = 3 → t.bat[p].charge = .dormant ∧ t.aon.dormant = putBit s.aon.dormant p.val true ∧
          t.bat[p].faultWord.getLsbD 5 = true))) ∧
    (∀ ok, ripe s.bat[p].qual.time 2 = false → exec (.batteryQualificationEnd p ok) s = .next s) ∧
    (s.bat[p].charge = .qualification → s.bat[p].qualRetry = true → ripe s.bat[p].retryTime 60 = true →
      exec (.qualificationRetry p) s = .next (onBat p (fun x => { x with qualRetry := false, retryTime := 0, qual := {} }) s)) ∧
    (∀ k : ChargeTimer, s.bat[p].charge = timerState k → timerLimit s p s.bat[p].charge ≤ s.bat[p].timer → s.bat[p].fitDue = false →
      Completes (.chargeTimerExpiry p k) s fun t => t.bat[p].charge = .dormant ∧
        t.aon = { s.aon with dormant := putBit s.aon.dormant p.val true } ∧ t.bat[p].cDormant = s.bat[p].cDormant.bump ∧
        t.bat[p].faultWord.getLsbD (timerBit k) = true ∧ Captures s t 0x23 3 p.val (timerBit k)) ∧
    (∀ k : ChargeTimer, s.bat[p].timer < timerLimit s p s.bat[p].charge → exec (.chargeTimerExpiry p k) s = .next s) ∧
    (pulseOver s p = true → Completes (.pulseEnd p) s fun t => t.bat[p] = { s.bat[p] with
          resting := true, probing := false, rests := s.bat[p].rests + 1, restTime := 0, pulseTime := 0, restT0 := none, capV := [], capI := [] } ∧
        t.chan[chanOfBat p] = { s.chan[chanOfBat p] with restDue := true }) ∧
    (s.bat[p].resting = true → s.chan[chanOfBat p].restHold = true → ripe s.bat[p].restTime (restLimit s.bat[p]) = true →
      Completes (.restEnd p) s fun t => t.bat[p] = { s.bat[p] with resting := false, fitDue := true, fitTime := 0 } ∧
        t.chan[chanOfBat p] = { s.chan[chanOfBat p] with restHold := false, restDue := false }) ∧
    (s.bat[p].resting = true → Completes (.restDisturbed p) s fun t =>
      t.bat[p] = { s.bat[p] with resting := false, fitDue := false, cDisturb := s.bat[p].cDisturb.bump } ∧
      t.chan[chanOfBat p] = { s.chan[chanOfBat p] with restHold := false, restDue := false }) ∧
    (probeDue s p = true → Completes (.probeRest p) s fun t => t.bat[p] = { s.bat[p] with
        resting := true, probing := true, probed := true, restTime := 0, pulseTime := 0, probeTime := 0, restT0 := none, capV := [], capI := [] } ∧
      t.chan[chanOfBat p].restDue = true) ∧
    (∀ fits ok, s.bat[p].fitDue = true → captureFits s p = (fits, ok) →
      (s.bat[p].probing = false → fitPassed s p fits ok false = false → Completes (.gladeFitComplete p) s fun t => t.bat[p].passes = 0 ∧
        t.bat[p].fitFails = s.bat[p].fitFails + 1 ∧ t.bat[p].restLen = min 10000 (2 * s.bat[p].restLen) ∧ t.bat[p].fitDue = false ∧
        t.bat[p].cFitFail = s.bat[p].cFitFail.bump ∧ t.bat[p].charge = s.bat[p].charge ∧ t.bat[p].cellInf = s.bat[p].cellInf ∧
        t.bat[p].rOhm = s.bat[p].rOhm ∧ (s.bat[p].fitFails = 7 → t.bat[p].faultWord.getLsbD 7 = true)) ∧
      (s.bat[p].probing = true → fitPassed s p fits ok true = false → Completes (.gladeFitComplete p) s fun t =>
        t.bat[p] = { s.bat[p] with fitDue := false, cProbe := s.bat[p].cProbe.bump }) ∧
      (s.bat[p].probing = true → fitPassed s p fits ok true = true → Completes (.gladeFitComplete p) s fun t =>
        t.bat[p].probeSeen = true ∧ t.bat[p].charge = s.bat[p].charge ∧ t.bat[p].passes = s.bat[p].passes ∧ t.bat[p].fitDue = false ∧
        t.bat[p].rBank = sumQ (fits.map (·.rOhm)) ∧ t.bat[p].cellInf = s.bat[p].cellInf ∧ t.bat[p].rOhm = s.bat[p].rOhm) ∧
      (s.bat[p].probing = false → fitPassed s p fits ok false = true → s.bat[p].charge = .absorption → ocvMet s p fits = true →
        Completes (.gladeFitComplete p) s fun t =>
          (s.bat[p].passes = 0 → t.bat[p].passes = 1 ∧ t.bat[p].charge = .absorption ∧ t.bat[p].fitFails = 0) ∧
          (1 ≤ s.bat[p].passes → t.bat[p].charge = (if leadAcid (chem s p) then .float else .maintenance) ∧ t.bat[p].soc = 100 ∧
            t.bat[p].socKnown = true ∧ t.bat[p].cTerm = s.bat[p].cTerm.bump ∧ t.bat[p].netSince = 0)) ∧
      (s.bat[p].probing = false → fitPassed s p fits ok false = true → s.bat[p].charge ≠ .absorption →
        Completes (.gladeFitComplete p) s fun t => t.bat[p].probeSeen = true ∧ t.bat[p].charge = s.bat[p].charge ∧
          t.bat[p].passes = s.bat[p].passes ∧ t.bat[p].vInf = sumQ (fits.map (·.vInf)) ∧ t.bat[p].fitDue = false)) ∧
    (pauseOver s p = true → Completes (.chargePauseTimeout p) s fun t => t.bat[p].charge = .qualification ∧ t.bat[p].timer = 0 ∧
      t.bat[p].paused = true ∧ t.bat[p].qualWait = s.bat[p].tapStop) ∧
    (equaliseElapsed s p = true →
      (cNom s p ≠ 0 → exec (.equaliseDue p) s = .next (onBat p (fun x => { x with eqDue := true }) s)) ∧
      (cNom s p = 0 → Completes (.equaliseDue p) s fun t => t.bat[p].faultWord.getLsbD 10 = true ∧
        t.bat[p].eqDue = false ∧ t.bat[p].eqTb = s.tb ∧ Tells s t 0x040D [byte p.val, Config.eventCode 0x040D 1])) ∧
    (cutDue s p = true → s.bat[p].cCut.hits = false → Completes (.dischargeCutoff p) s fun t =>
      t.bat[p].cCut = s.bat[p].cCut.bump ∧ t.bat[p].charge = s.bat[p].charge ∧
      (s.bat[p].charge ≠ .hold → t.bat[p].cut = true ∧ t.chan = s.chan) ∧
      (s.bat[p].charge = .hold → wardenCut t p = true ∧ toRideStopped t.chan[chanOfBat p] = true) ∧
      Tells s t 0x0407 ([byte p.val] ++ mvField (lowCell s p))) ∧
    (restoreDue s p = true → Completes (.dischargeRestore p) s fun t => wardenCut t p = false ∧
      (s.bat[p].charge ≠ .hold → t.bat[p] = { s.bat[p] with cut := false }) ∧
      Tells s t 0x0408 ([byte p.val] ++ mvField (lowCell s p))) ∧
    (reserveQuiet s p = true → exec (.reserveRelease p) s = .next (onBat p (fun x => { x with called := false }) s)) ∧
    (∀ i, primaryWire s p = true → s.clk.vcc = true → Completes (.primaryChargeCurrent p i) s fun t => UnitsKept (faultBit 8 p s) t ∧
      Captures s t 0x22 3 p.val 0)

/-- A cell over-voltage or an open tap stops charging until its own release, and the balancing switches alternate. With VCC on a
port with a chemistry, the first crossing of an armed cell stops charging, counted and reported, the third in 24 h until a
reset; further segments join the mask; 60 s after the last crossing it is clearable. An open or reversed tap stops charging and
is reported; nine passes count, the tenth releases it and closes its fault. A balancing slot takes the other half of the
switches, a write timeout of two frames opens all. (08_cells.md) -/
def Obligations.CellsAndTaps : Prop :=
  ∀ (p : Fin 4) (s : State),
    (∀ k : Fin 16, s.clk.vcc = true → chem s p ≠ 0 → chem s p ≠ 7 → gangLow s p = p →
      (s.bat[p].ovp = .armed → Completes (.cellOvpTrip p k) s fun t =>
        t.bat[p].ovp = (if 2 ≤ (recentTrips s.tb s.bat[p].ovpTrips).length then .resetOnly else .stopped) ∧
        t.bat[p].ovpMask = putBit s.bat[p].ovpMask k.val true ∧ t.bat[p].cTrips = s.bat[p].cTrips.bump ∧
        t.bat[p].ovpTrips = s.tb :: recentTrips s.tb s.bat[p].ovpTrips ∧ t.bat[p].faultWord.getLsbD 9 = true ∧
        t.chan[chanOfBat p].stops.contains .cellOvp = true ∧ fromRideStopped t.chan[chanOfBat p] = true ∧
        t.bat[p].charge = s.bat[p].charge ∧ Captures s t 0x20 3 p.val k.val ∧ ∀ r : Fin 4, r ≠ p → t.bat[r] = s.bat[r]) ∧
      ((s.bat[p].ovp = .stopped ∨ s.bat[p].ovp = .clearable) → exec (.cellOvpTrip p k) s =
        .next (onBat p (fun x => { x with ovp := .stopped, ovpTb := s.tb, ovpMask := putBit x.ovpMask k.val true }) s)) ∧
      (s.bat[p].ovp = .resetOnly → exec (.cellOvpTrip p k) s =
        .next (onBat p (fun x => { x with ovpTb := s.tb, ovpMask := putBit x.ovpMask k.val true }) s))) ∧
    (s.bat[p].ovp = .stopped →
      (6000000000 ≤ (s.tb - s.bat[p].ovpTb).toNat → exec (.ovpClearable p) s = .next (onBat p (fun x => { x with ovp := .clearable }) s)) ∧
      ((s.tb - s.bat[p].ovpTb).toNat < 6000000000 → exec (.ovpClearable p) s = .next s)) ∧
    (∀ (m : BitVec 16) (k : Fin 16), tapsWatched s p = true → m ≠ 0 → s.bat[p].tapStop = false → s.bat[p].charge ≠ .qualification →
      ∀ c, (c = .openTapTest p m ∨ c = .tapReversed p k ∧ m = putBit 0 k.val true) → Completes c s fun t =>
        t.bat[p].tapStop = true ∧ t.bat[p].openMask = s.bat[p].openMask ||| m ∧ t.bat[p].tapPasses = 0 ∧
        t.bat[p].cTap = s.bat[p].cTap.bump ∧ t.chan[chanOfBat p].stops.contains .tapFault = true ∧
        t.bat[p].charge = (if mayQualify s.bat[p].charge then .qualification else s.bat[p].charge) ∧ Captures s t 0x21 3 p.val 0) ∧
    (tapsWatched s p = true → s.bat[p].tapStop = true → s.bat[p].tapPasses < 9 →
      exec (.openTapTest p 0) s = .next (onBat p (fun x => { x with tapPasses := x.tapPasses + 1 }) s)) ∧
    (tapsWatched s p = true → s.bat[p].tapStop = true → 9 ≤ s.bat[p].tapPasses → Completes (.openTapTest p 0) s fun t =>
      t.bat[p].tapStop = false ∧ t.bat[p].openMask = 0 ∧ t.chan[chanOfBat p].stops.contains .tapFault = false ∧
      (∀ f, findFault s 0x21 3 (byte p.val) = some f → f ∉ t.warden.standing) ∧ ∀ r : Fin 4, r ≠ p → t.bat[r] = s.bat[r]) ∧
    (tapsWatched s p = true → s.bat[p].tapStop = false → Completes (.openTapTest p 0) s fun t =>
      t.bat[p] = { s.bat[p] with openMask := 0, tapPasses := 0 } ∧ { t with bat := s.bat } = s) ∧
    exec (.balanceSlot p) s = .next (onBat p (fun x => { x with oddSlot := !x.oddSlot }) s) ∧
    (2 ≤ s.bat[p].bleedAge → Completes (.balanceWriteTimeout p) s fun t => bleedClosed t p = 0 ∧
      t.bat[p] = { s.bat[p] with bleedWritten := 0 } ∧ { t with bat := s.bat } = s ∧ ∀ r : Fin 4, r ≠ p → t.bat[r] = s.bat[r]) ∧
    (s.bat[p].bleedAge < 2 → exec (.balanceWriteTimeout p) s = .next s)

/-- A USB port follows its CC pins through AttachWait, Try and Attached, and leaves them as R240 to R243, R253 and R259 say. A
change on the CC pins is noted, and begins or ends an AttachWait state; its debounce attaches the role the policy allows, tries
the preferred one, or falls back; a lost partner begins the sink's planned withdrawal or the source's discharge; DRP toggling,
Try, TryWait, ErrorRecovery and the discharge end in their next states; a VBUS over the bound of R253 is a stop and a Hard
Reset, the third in 60 s ErrorRecovery with the hold, and one within it nothing; a VCONN over-current turns it off, reported and
told. (09_usb_pd.md) -/
def Obligations.UsbAttachAndDetach : Prop :=
  ∀ (p : Fin 4) (s : State),
    (∀ v, (usbEn s p = false ∨ s.clk.vcc = false) → exec (.ccChange p v) s = .next (onUsb p (fun u => { u with view := v }) s)) ∧
    (∀ v, usbEn s p = true → s.clk.vcc = true → Completes (.ccChange p v) s fun t =>
      t.usb[p].view = v ∧ t.chan = s.chan ∧ (∀ r : Fin 4, r ≠ p → t.usb[r] = s.usb[r]) ∧
      (usbActive s p = true → s.usb[p].tc = .unattSnk → isRp v = true → s.usb[p].handover = false →
        t.usb[p].tc = .attWaitSnk ∧ t.usb[p].path = .debounce) ∧
      (usbActive s p = true → s.usb[p].tc = .unattSrc → isRd v = true → s.usb[p].handover = false → t.usb[p].tc = .attWaitSrc) ∧
      (s.usb[p].tc = .attWaitSrc → isRd v = false → t.usb[p].tc = .unattSrc) ∧
      (s.usb[p].tc = .attSnk → s.usb[p].source = false → isRp v = true → t.usb[p].sinkTxOk = decide (v = .rp30)) ∧
      (attached s.usb[p].tc = true → t.usb[p].tc = s.usb[p].tc)) ∧
    (∀ w, s.usb[p].tc = .attWaitSnk →
      (isRp s.usb[p].view = false → ∀ v, exec (.typecDebounceExpiry p v w) s = .next (onUsb p (fun u => { u with tc := .unattSnk, path := .absent }) s)) ∧
      (isRp s.usb[p].view = true → exec (.typecDebounceExpiry p false w) s = .next s) ∧
      (isRp s.usb[p].view = true → rolePolicy s p = 3 → s.usb[p].barred = false →
        exec (.typecDebounceExpiry p true w) s = .next (onUsb p (fun u => { u with tc := .trySrc }) s)) ∧
      (isRp s.usb[p].view = true → (rolePolicy s p ≠ 3 ∨ s.usb[p].barred = true) → Completes (.typecDebounceExpiry p true w) s fun t =>
        t.usb[p].tc = .attSnk ∧ t.usb[p].path = .qualifying ∧ t.usb[p].source = false ∧ t.usb[p].cAttach = s.usb[p].cAttach.bump ∧
        t.usb[p].keys = attachKeys s p ∧ t.usb[p].rpLevel = rpOf s.usb[p].view 0 ∧ t.chan = s.chan)) ∧
    (s.usb[p].tc = .attWaitSrc → ∀ v w,
      (isRd s.usb[p].view = false → exec (.typecDebounceExpiry p v w) s = .next (onUsb p (fun u => { u with tc := .unattSrc }) s)) ∧
      (isRd s.usb[p].view = true → rolePolicy s p = 2 → exec (.typecDebounceExpiry p v w) s = .next (onUsb p (fun u => { u with tc := .trySnk }) s)) ∧
      (isRd s.usb[p].view = true → rolePolicy s p ≠ 2 → Completes (.typecDebounceExpiry p v w) s fun t => t.usb[p].tc = .attSrc ∧
        t.usb[p].source = true ∧ t.usb[p].dfp = true ∧ t.usb[p].seq = .rise ∧ t.usb[p].cAttach = s.usb[p].cAttach.bump ∧
        t.usb[p].vconnSrc = (swapOption s p 4 && w) ∧ t.usb[p].vconnOn = (swapOption s p 4 && w && raSeen s.usb[p]) ∧
        t.chan[chanOfUsb p].enabled = true ∧ t.chan[chanOfUsb p].refTarget = 5000 ∧ t.chan[chanOfUsb p].refOut = s.usb[p].vbus.last)) ∧
    (∀ v w, s.usb[p].tc = .attSnk → isRp s.usb[p].view = false → s.usb[p].seq ≠ .swapWait → s.usb[p].seq ≠ .swapSink →
      s.usb[p].source = false → s.usb[p].handover = false → Completes (.typecDebounceExpiry p v w) s fun t =>
        t.usb[p].path = .withdrawing ∧ t.usb[p].handover = true ∧ t.usb[p].redetect = true ∧ t.usb[p].seq = .none ∧
        t.chan[chanOfUsb p].enabled = false ∧ (written t.chan[chanOfUsb p]).pos = 0) ∧
    (∀ v w, s.usb[p].tc = .attSrc → isRd s.usb[p].view = false → s.usb[p].source = true → s.usb[p].seq ≠ .drain →
      Completes (.typecDebounceExpiry p v w) s fun t => t.usb[p].seq = .drain ∧ t.usb[p].vconnOn = false ∧
        (switching s (chanOfUsb p) = true → t.chan[chanOfUsb p].refTarget = 3000) ∧
        (switching s (chanOfUsb p) = false → t.usb[p].dschg = true ∧ t.chan[chanOfUsb p].enabled = false)) ∧
    (isDrp s p = true → usbActive s p = true → s.usb[p].barred = false →
      (s.usb[p].tc = .unattSnk → (isRd s.usb[p].view = false → exec (.drpToggle p) s =
          .next (onUsb p (fun u => { u with tc := .unattSrc, rpLevel := rpFor (max 500 (objCurrent s p 5000 10)) }) s)) ∧
        (isRd s.usb[p].view = true → s.usb[p].handover = false → Completes (.drpToggle p) s fun t => t.usb[p].tc = .attWaitSrc ∧ t.chan = s.chan)) ∧
      (s.usb[p].tc = .unattSrc → (isRp s.usb[p].view = false → exec (.drpToggle p) s = .next (onUsb p (fun u => { u with tc := .unattSnk }) s)) ∧
        (isRp s.usb[p].view = true → s.usb[p].handover = false → Completes (.drpToggle p) s fun t => t.usb[p].tc = .attWaitSnk ∧
          t.usb[p].path = .debounce ∧ t.chan = s.chan))) ∧
    (∀ w, (s.usb[p].tc = .trySnk ∨ s.usb[p].tc = .tryWaitSnk → Completes (.tryTimerExpiry p true w) s fun t => t.usb[p].tc = .attSnk ∧
          t.usb[p].path = .qualifying ∧ t.usb[p].source = false) ∧
      (s.usb[p].tc = .trySrc ∨ s.usb[p].tc = .tryWaitSrc → Completes (.tryTimerExpiry p true w) s fun t => t.usb[p].tc = .attSrc ∧
          t.usb[p].source = true ∧ t.usb[p].seq = .rise) ∧
      (s.usb[p].tc = .trySnk → exec (.tryTimerExpiry p false w) s = .next (onUsb p (fun u => { u with tc := .tryWaitSrc }) s)) ∧
      (s.usb[p].tc = .trySrc → exec (.tryTimerExpiry p false w) s = .next (onUsb p (fun u => { u with tc := .tryWaitSnk }) s)) ∧
      (s.usb[p].tc = .tryWaitSrc ∨ (s.usb[p].tc = .tryWaitSnk ∧ isRp s.usb[p].view = false) →
        exec (.tryTimerExpiry p false w) s = .next (onUsb p (fun u => { u with tc := .unattSnk }) s))) ∧
    (isRp s.usb[p].view = false → isRd s.usb[p].view = false →
      (s.usb[p].tc = .errorRecovery → Completes (.errorRecoveryEnd p) s fun t => t.usb[p] = { s.usb[p] with tc := unattachedOf s p }) ∧
      (s.usb[p].tc = .disabled → s.usb[p].held60 = true → Completes (.errorRecoveryEnd p) s fun t => t.usb[p] = { s.usb[p] with
        held60 := false, tc := unattachedOf (onUsb p (fun u => { u with held60 := false }) s) p })) ∧
    (s.usb[p].dschg = true →
      (s.usb[p].seq = .none → exec (.vbusDischargeDone p) s = .next (onUsb p (fun u => { u with dschg := false }) s)) ∧
      (s.usb[p].seq = .hrSource → exec (.vbusDischargeDone p) s = .next (onUsb p (fun u => { u with dschg := false, partnerDrives := false }) s)) ∧
      (s.usb[p].seq = .drain → isRp s.usb[p].view = false → isRd s.usb[p].view = false → Completes (.vbusDischargeDone p) s fun t =>
        t.usb[p].tc = detachedOf s p ∧ t.usb[p].source = false ∧ t.usb[p].contract = {} ∧ t.usb[p].seq = .none ∧
        t.chan[chanOfUsb p].enabled = false) ∧
      (s.usb[p].seq = .swapDown → Completes (.vbusDischargeDone p) s fun t => t.usb[p].source = false ∧ t.usb[p].tc = .attSnk ∧
        t.usb[p].seq = .swapSink ∧ t.usb[p].dschg = false ∧ SendsMsg s t p 6)) ∧
    (∀ v, s.usb[p].tc = .attSnk → s.usb[p].source = false → s.usb[p].ovStop = false → 115 / 100 * vHigh s.usb[p] + 500 < v →
      ((recentOv s.tb s.usb[p].ovTimes).length < 2 → s.mbox.ready = true → s.usb[p].hrCount < 2 → inSwap s.usb[p] = false →
        Completes (.sinkOvervoltage p v) s fun t => t.usb[p].ovStop = true ∧ t.usb[p].cOv = s.usb[p].cOv.bump ∧ t.usb[p].seq = .hrSink ∧
          t.usb[p].cHrSent = s.usb[p].cHrSent.bump ∧ t.chan[chanOfUsb p].stops.contains .sinkOv = true ∧ Captures s t 0x15 2 p.val 0) ∧
      (2 ≤ (recentOv s.tb s.usb[p].ovTimes).length → Completes (.sinkOvervoltage p v) s fun t => t.usb[p].tc = .errorRecovery ∧
        t.usb[p].held60 = true ∧ t.usb[p].ovTimes = [] ∧ t.usb[p].contract = {} ∧ Captures s t 0x15 2 p.val 0)) ∧
    (∀ v, v ≤ 115 / 100 * vHigh s.usb[p] + 500 → exec (.sinkOvervoltage p v) s = .next s) ∧
    (s.usb[p].vconnOn = true → Completes (.vconnOvercurrent p) s fun t =>
      UnitsKept (onUsb p (fun u => { u with vconnOn := false, vconnBad := true, cable := 1 }) s) t ∧ Captures s t 0x16 2 p.val 0 ∧
      Tells s t 0x0609 [byte p.val])

/-- Messages are stored once, transmissions acknowledged or retried, and a sink's contract is requested, put in force and
renewed. A repeated MessageID changes nothing, a new one is stored and its entry reaches Q14; a transmission with its GoodCRC
advances the MessageID, without it waits for a retry, and fails for good counted; a sink without capabilities sends Hard Reset
twice and then takes the implicit contract; the capabilities' best object is requested, PS_RDY puts it in force; PPS and EPR
contracts are renewed; a missing reply and a Soft Reset are answered, and so are an identity and a vendor message outside a
source transition, in which a vendor message brings Hard Reset. (09_usb_pd.md, 13_engines_rings_clocks.md) -/
def Obligations.UsbMessagesAndSink : Prop :=
  ∀ (p : Fin 4) (s : State),
    (∀ sp id m e, attached s.usb[p].tc = true → (sp = true → s.usb[p].vconnSrc = true) → m ≠ .goodCrc → s.usb[p].bist = false →
      ((layerOf s.usb[p] sp).stored = some id → m ≠ .softReset → exec (.pdMessageReceived p sp id m e) s = .next s) ∧
      ((layerOf s.usb[p] sp).stored ≠ some id → s.usb[p].holdLost = false → hasRow m = true → s.usb[p].held = [] →
        1 ≤ credit 14 s.ring[14] → Completes (.pdMessageReceived p sp id m e) s fun t => (layerOf t.usb[p] sp).stored = some id ∧
          t.ring[14].entries = s.ring[14].entries ++ [⟨pad 48 (receivedEntry p sp m s.tb e), true⟩] ∧
          (sp = false → t.usb[p].pd20 = decide (ofLe (slice e 8 2) / 64 % 4 < 2)) ∧ t.usb[p].tc = s.usb[p].tc ∧ t.chan = s.chan) ∧
      ((layerOf s.usb[p] sp).stored ≠ some id → s.mbox.ready = true → s.usb[p].holdLost = false → m = .accept → s.usb[p].ask = .drSwap →
        inTransition s.usb[p] = false → s.usb[p].askGone = false → Completes (.pdMessageReceived p sp id m e) s fun t => t.usb[p].dfp = !s.usb[p].dfp ∧
          t.usb[p].ask = .none ∧ t.usb[p].cSwap = s.usb[p].cSwap.bump)) ∧
    (∀ sp id m e, s.usb[p].bist = true → exec (.pdMessageReceived p sp id m e) s = .next s) ∧
    (∀ i, indexOf s.ring[15] (BitVec.ofNat 4 p.val) = some i →
      (nextForPort p i (s.ring[15].entries.drop (s.ring[15].entries.length - lagOf s.ring[15] i)) = none → ∀ rx ok,
        Completes (.pdTransmit p rx ok) s fun t => indexOf t.ring[15] (BitVec.ofNat 4 p.val) = some s.ring[15].p ∧ t.usb = s.usb) ∧
      (∀ e j, nextForPort p i (s.ring[15].entries.drop (s.ring[15].entries.length - lagOf s.ring[15] i)) = some (e, j) →
        s.usb[p].txBusy = none →
        (byteAt e 1 = 1 → ∀ rx ok, Completes (.pdTransmit p rx ok) s fun t => indexOf t.ring[15] (BitVec.ofNat 4 p.val) = some j ∧
          t.usb[p] = { s.usb[p] with hrAsked := false, sop := {}, sopP := {} }) ∧
        (byteAt e 1 ≠ 1 → Completes (.pdTransmit p false false) s fun t => indexOf t.ring[15] (BitVec.ofNat 4 p.val) = some j ∧
          t.usb[p] = { s.usb[p] with txBusy := some e, txTries := 0 }) ∧
        (byteAt e 1 ≠ 1 → Completes (.pdTransmit p false true) s fun t => indexOf t.ring[15] (BitVec.ofNat 4 p.val) = some j ∧
          t.usb[p].txBusy = none ∧
          (layerOf t.usb[p] (decide (byteAt e 2 = 1))).txId = (layerOf s.usb[p] (decide (byteAt e 2 = 1))).txId + 1) ∧
        (byteAt e 1 ≠ 1 → ∀ ok, Completes (.pdTransmit p true ok) s fun t => indexOf t.ring[15] (BitVec.ofNat 4 p.val) = some j ∧
          t.usb[p].txBusy = none ∧ t.usb[p].sop = s.usb[p].sop))) ∧
    (∀ e, s.usb[p].txBusy = some e →
      (Completes (.pdRetry p true) s fun t => t.usb[p].txBusy = none ∧
        (layerOf t.usb[p] (decide (byteAt e 2 = 1))).txId = (layerOf s.usb[p] (decide (byteAt e 2 = 1))).txId + 1) ∧
      (s.usb[p].txTries + 1 < (if s.usb[p].pd20 then 3 else 2) →
        exec (.pdRetry p false) s = .next (onUsb p (fun u => { u with txTries := u.txTries + 1 }) s)) ∧
      ((if s.usb[p].pd20 then 3 else 2) ≤ s.usb[p].txTries + 1 → Completes (.pdRetry p false) s fun t => t.usb[p].txBusy = none ∧
        t.usb[p].cTxFail = s.usb[p].cTxFail.bump)) ∧
    (s.usb[p].tc = .attSnk → s.usb[p].source = false → s.usb[p].seq = .none → s.usb[p].contract.kind = .none → s.usb[p].next.kind = .none →
      s.mbox.ready = true →
      (s.usb[p].capWait < 2 → s.usb[p].hrCount < 2 → Completes (.sinkWaitCapTimeout p) s fun t =>
        t.usb[p].capWait = s.usb[p].capWait + 1 ∧ t.usb[p].hrCount = s.usb[p].hrCount + 1 ∧ t.usb[p].cHrSent = s.usb[p].cHrSent.bump) ∧
      (2 ≤ s.usb[p].capWait → Completes (.sinkWaitCapTimeout p) s fun t => t.usb[p].contract.kind = .implicit ∧
        t.usb[p].contract.mv = 5000 ∧ t.usb[p].contract.ma = implicitCurrent s.usb[p].rpLevel ∧
        (s.usb[p].path = .qualifying → s.usb[p].handover = false → s.usb[p].qualBad = false → s.clk.vdrvOk = true → t.usb[p].path = .ramping ∧ t.chan[chanOfUsb p].refTarget = 4500 ∧ t.chan[chanOfUsb p].enabled = true))) ∧
    (∀ objs epr, s.usb[p].tc = .attSnk → s.usb[p].source = false → s.mbox.ready = true → Completes (.sourceCapabilities p objs epr) s fun t =>
      t.usb[p].partner = objs ∧ t.usb[p].capWait = 0 ∧ t.usb[p].epr = (s.usb[p].epr || epr) ∧
      (∀ c, chooseObject s p objs = some c → t.usb[p].ask = .request ∧ t.usb[p].next = { c with rdo := rdoOf c } ∧
        SendsMsg s t p (if s.usb[p].epr || epr then 9 else 2)) ∧
      (chooseObject s p objs = none → t.usb[p].ask = s.usb[p].ask ∧ t.usb[p].next = s.usb[p].next)) ∧
    (∀ v, s.usb[p].tc = .attSnk → s.usb[p].source = false → s.usb[p].next.kind ≠ .none → s.usb[p].ask ≠ .request → s.mbox.ready = true →
      Completes (.sinkPsRdy p v) s fun t => t.usb[p].contract = s.usb[p].next ∧ t.usb[p].next = {} ∧
        (s.usb[p].path = .ramping ∨ s.usb[p].path = .delivering →
          (s.usb[p].next.mv = s.usb[p].contract.mv → t.usb[p].path = s.usb[p].path ∧
            t.chan[chanOfUsb p].refTarget = s.chan[chanOfUsb p].refTarget) ∧
          (s.usb[p].next.mv ≠ s.usb[p].contract.mv → t.usb[p].path = .ramping ∧ t.chan[chanOfUsb p].refTarget = 9 / 10 * s.usb[p].next.mv)) ∧
        (s.usb[p].path = .qualifying → s.usb[p].handover = false → s.usb[p].seq = .none → s.usb[p].qualBad = false → s.clk.vdrvOk = true →
          t.usb[p].path = .ramping ∧ t.chan[chanOfUsb p].refTarget = 9 / 10 * s.usb[p].next.mv ∧ t.chan[chanOfUsb p].refOut = v ∧
          t.chan[chanOfUsb p].ramp = 0)) ∧
    (s.usb[p].tc = .attSnk → s.usb[p].contract.kind = .pps → s.usb[p].ask = .none → s.mbox.ready = true →
      (s.usb[p].sinkTxOk = true → Completes (.ppsRequestPeriod p) s fun t => t.usb[p].ask = .request ∧
        t.usb[p].next = { s.usb[p].contract with rdo := rdoOf s.usb[p].contract } ∧ SendsMsg s t p (if s.usb[p].epr then 9 else 2)) ∧
      (s.usb[p].sinkTxOk = false → exec (.ppsRequestPeriod p) s = .next (onUsb p (fun u => { u with later := .request }) s))) ∧
    (s.usb[p].tc = .attSnk → s.usb[p].source = false → s.usb[p].epr = true → s.mbox.ready = true →
      (s.usb[p].sinkTxOk = true → Completes (.eprKeepalive p) s fun t => t.usb[p] = { s.usb[p] with txSeq := s.usb[p].txSeq + 1 } ∧
        SendsMsg s t p 16) ∧
      (s.usb[p].sinkTxOk = false → exec (.eprKeepalive p) s = .next (onUsb p (fun u => { u with later := .keepAlive }) s))) ∧
    (attached s.usb[p].tc = true → s.mbox.ready = true →
      (s.usb[p].ask = .none → exec (.senderResponseTimeout p) s = .next s) ∧
      ((s.usb[p].ask = .request ∨ s.usb[p].ask = .sourceCap ∨ s.usb[p].ask = .softReset) → Completes (.senderResponseTimeout p) s fun t =>
        t.usb[p].cHrSent = s.usb[p].cHrSent.bump ∧ t.usb[p].contract = {} ∧ t.usb[p].ask = .none) ∧
      ((s.usb[p].ask = .prSwap ∨ s.usb[p].ask = .drSwap ∨ s.usb[p].ask = .vconnSwap) → Completes (.senderResponseTimeout p) s fun t =>
        t.usb[p].ask = .none ∧ t.usb[p].waitDue = false ∧ t.usb[p].contract = s.usb[p].contract)) ∧
    (∀ sp, attached s.usb[p].tc = true → Completes (.softResetReceived p sp) s fun t => t.usb[p].cSoft = s.usb[p].cSoft.bump ∧
      layerOf t.usb[p] sp = {} ∧ t.usb[p].contract = s.usb[p].contract ∧ t.chan = s.chan ∧
      (s.mbox.ready = true → s.usb[p].source = false → t.usb[p].ask = .none ∧ SendsMsg s t p 3)) ∧
    (attached s.usb[p].tc = true → s.mbox.ready = true →
      (∀ c, inTransition s.usb[p] = false → Completes (.discoverIdentity p false c) s fun t =>
        t.usb[p] = { s.usb[p] with txSeq := s.usb[p].txSeq + 1 } ∧ SendsMsg s t p 15) ∧
      (∀ c, s.usb[p].ask = .discover → c ≠ 0 → Completes (.discoverIdentity p true (some c)) s fun t => t.usb[p].cable = c ∧
        t.usb[p].ask = .sourceCap ∧ SendsMsg s t p 1) ∧
      (s.usb[p].ask = .discover → Completes (.discoverIdentity p true none) s fun t => t.usb[p].discTries = s.usb[p].discTries + 1) ∧
      (∀ b, inTransition s.usb[p] = false → Completes (.vdmReceived p b) s fun t => t.usb[p] = { s.usb[p] with txSeq := s.usb[p].txSeq + 1 } ∧
        SendsMsg s t p (if b then 15 else 16)) ∧
      (inTransition s.usb[p] = true → ∀ b, Completes (.vdmReceived p b) s fun t => t.usb[p].cHrSent = s.usb[p].cHrSent.bump))

/-- A source answers requests and moves VBUS, swaps run as R261 to R264 say, and a Hard Reset is recovered from. An acceptable
Request is accepted and its target set 30 ms later with its clamp, another rejected; a PPS time-out is a Hard Reset; a received
swap is answered at once, later while the port's own waits, or with Hard Reset in a transition; the port's own PR_Swap waits for
its turn; the initial sink drives VBUS after its hand-over; a Hard Reset received ends the contract, is counted, and is followed
by vSafe0V and, for a source, vSafe5V from the measured voltage; a sink whose VBUS has not returned above 4.40 V is treated as
detached. (09_usb_pd.md) -/
def Obligations.UsbSourceSwapsAndResets : Prop :=
  ∀ (p : Fin 4) (s : State),
    (∀ rdo, s.usb[p].tc = .attSrc → s.usb[p].source = true → s.mbox.ready = true →
      (s.usb[p].seq = .none → ∀ c, requested s.usb[p] rdo = some c → Completes (.sourceRequest p rdo) s fun t => t.usb[p].next = c ∧
        t.usb[p].seq = .accepted ∧ t.usb[p].ask = .none ∧ t.usb[p].contract = s.usb[p].contract ∧ t.chan = s.chan ∧ SendsMsg s t p 3) ∧
      (s.usb[p].seq = .none → requested s.usb[p] rdo = none → s.usb[p].reqSlot = none → Completes (.sourceRequest p rdo) s fun t =>
        t.usb[p] = { s.usb[p] with ask := .none, txSeq := s.usb[p].txSeq + 1 } ∧ SendsMsg s t p 4) ∧
      ((s.usb[p].seq = .accepted ∨ s.usb[p].seq = .moving) → Completes (.sourceRequest p rdo) s fun t =>
        t.usb[p].cHrSent = s.usb[p].cHrSent.bump ∧ t.usb[p].contract = {})) ∧
    (s.usb[p].source = true →
      (s.usb[p].seq = .accepted → Completes (.sourceTransitionStart p) s fun t => t.usb[p] = { s.usb[p] with seq := .moving } ∧
        t.chan[chanOfUsb p].refTarget = s.usb[p].next.mv ∧ (written t.chan[chanOfUsb p]).neg = srcClampFor s.usb[p].next) ∧
      (s.usb[p].seq = .swapDown → switching s (chanOfUsb p) = true → Completes (.sourceTransitionStart p) s fun t =>
        t.usb[p] = s.usb[p] ∧ t.chan[chanOfUsb p].refTarget = 3000)) ∧
    (s.usb[p].tc = .attSrc → s.usb[p].source = true → s.usb[p].contract.kind = .pps → s.mbox.ready = true → Completes (.ppsTimeout p) s fun t =>
      t.usb[p].cHrSent = s.usb[p].cHrSent.bump ∧ t.usb[p].contract = {}) ∧
    (attached s.usb[p].tc = true → s.mbox.ready = true → ∀ c k ok, (c = .prSwap p ∧ k = .pr ∧ ok = prSwapOk s p ∨
        c = .drSwap p ∧ k = .dr ∧ ok = swapOption s p 2 ∨
        ∃ b, c = .vconnSwap p b ∧ k = .vconn ∧ ok = (swapOption s p 3 && (s.usb[p].vconnSrc || (swapOption s p 4 && b)))) →
      ((s.usb[p].seq = .accepted ∨ s.usb[p].seq = .moving) → Completes c s fun t => t.usb[p].cHrSent = s.usb[p].cHrSent.bump) ∧
      (s.usb[p].seq ≠ .accepted → s.usb[p].seq ≠ .moving →
        (sourceBusy s.usb[p] = true → Completes c s fun t => t.usb[p] = { s.usb[p] with reqSlot := some k }) ∧
        (s.usb[p].ask = .none → ok = false → Completes c s fun t => t.usb[p] = { s.usb[p] with txSeq := s.usb[p].txSeq + 1 } ∧
          SendsMsg s t p 4) ∧
        (s.usb[p].source = false → s.usb[p].ask ≠ .none → ok = false → Completes c s fun t => t.usb[p].ask = .none ∧
          t.usb[p].askGone = true ∧ SendsMsg s t p 4) ∧
        (sourceBusy s.usb[p] = false → ok = true → Completes c s fun t => (k ≠ .vconn ∨ s.usb[p].vconnSrc = true → SendsMsg s t p 3) ∧
          (k = .pr → t.usb[p].contract = {} ∧ t.usb[p].next = {} ∧
            t.usb[p].seq = (if s.usb[p].source then .swapDown else .swapWait) ∧ (s.usb[p].source = false → t.usb[p].handover = true)) ∧
          (k = .dr → t.usb[p].dfp = !s.usb[p].dfp ∧ t.usb[p].cSwap = s.usb[p].cSwap.bump ∧ t.usb[p].contract = s.usb[p].contract) ∧
          (k = .vconn → t.usb[p].vconnSrc = true ∧ (s.usb[p].vconnSrc = true → t.usb[p].vconnWait = true ∧ t.usb[p].vconnOn = s.usb[p].vconnOn) ∧
            (s.usb[p].vconnSrc = false → t.usb[p].vconnOn = !s.usb[p].vconnBad ∧ t.usb[p].cSwap = s.usb[p].cSwap.bump))))) ∧
    (attached s.usb[p].tc = true → s.mbox.ready = true → s.usb[p].swapDone = false → isDrp s p = true → swapOption s p 1 = true →
      s.usb[p].ask = .none → s.usb[p].seq = .none → (s.usb[p].contract.kind = .fixed ∨ s.usb[p].contract.kind = .pps ∨ s.usb[p].contract.kind = .eprFixed) →
      s.usb[p].source ≠ swapOption s p 5 → s.usb[p].pd20 = false → Completes (.prSwapInitiate p) s fun t => t.usb[p].swapDone = true ∧
        (s.usb[p].source = true → t.usb[p].ask = .prSwap ∧ t.usb[p].waitDue = true ∧ t.usb[p].sinkTxOk = false ∧ t.ring = s.ring) ∧
        (s.usb[p].source = false → s.usb[p].sinkTxOk = true → t.usb[p].ask = .prSwap ∧ SendsMsg s t p 10) ∧
        (s.usb[p].source = false → s.usb[p].sinkTxOk = false → t.usb[p].later = .prSwap ∧ t.ring = s.ring)) ∧
    (∀ v, s.usb[p].seq = .swapStart →
      (s.usb[p].handover = true → Completes (.tSwapSourceStartExpiry p v) s fun t => t.usb[p].startDue = true ∧ t.usb[p].seq = .swapStart ∧ t.chan = s.chan) ∧
      (s.usb[p].handover = false → Completes (.tSwapSourceStartExpiry p v) s fun t => t.usb[p].seq = .swapUp ∧ t.usb[p].startDue = false ∧
        t.chan[chanOfUsb p].enabled = true ∧ t.chan[chanOfUsb p].refTarget = 5000 ∧ t.chan[chanOfUsb p].refOut = v)) ∧
    (s.usb[p].waitDue = true → askMessage s.usb[p].ask ≠ 0 → s.mbox.ready = true → Completes (.tSinkTxExpiry p) s fun t =>
      t.usb[p].waitDue = false ∧ t.usb[p].ask = s.usb[p].ask ∧ SendsMsg s t p (askMessage s.usb[p].ask)) ∧
    (∀ d, attached s.usb[p].tc = true →
      (s.usb[p].hrAsked = true → Completes (.hardResetReceived p true d) s fun t =>
        t.usb[p] = { s.usb[p] with hrAsked := false, partnerDrives := d && s.usb[p].source }) ∧
      (s.mbox.ready = true → Completes (.hardResetReceived p false d) s fun t => t.usb[p].cHrRecv = s.usb[p].cHrRecv.bump ∧
        t.usb[p].contract = {} ∧ t.usb[p].cHrSent = s.usb[p].cHrSent ∧
        (s.usb[p].hrCount < 2 → inSwap s.usb[p] = false → s.usb[p].source = true → t.usb[p].seq = .hrSource ∧ t.usb[p].partnerDrives = d ∧ t.usb[p].vconnOn = false) ∧
        (s.usb[p].hrCount < 2 → inSwap s.usb[p] = false → s.usb[p].source = false → t.usb[p].seq = .hrSink) ∧
        (2 ≤ s.usb[p].hrCount → t.usb[p].tc = .errorRecovery)) ∧
      (s.mbox.ready = false → Completes (.hardResetReceived p false d) s fun t => t.usb[p].sop = {} ∧ t.usb[p].sopP = {} ∧
        t.usb[p].contract = s.usb[p].contract)) ∧
    (∀ v w, s.usb[p].tc = .attSrc → s.usb[p].seq = .hrSource → s.usb[p].partnerDrives = false → Completes (.srcRecoverEnd p v w) s fun t =>
      t.usb[p].seq = .rise ∧ t.usb[p].dschg = false ∧ t.chan[chanOfUsb p].enabled = true ∧ t.chan[chanOfUsb p].refOut = v ∧
      t.chan[chanOfUsb p].refTarget = 5000 ∧
      t.usb[p].vconnOn = (s.usb[p].vconnSrc && raSeen s.usb[p] && !s.usb[p].vconnBad && w)) ∧
    (s.usb[p].tc = .attSnk → s.usb[p].source = false → (s.usb[p].seq = .hrSink ∨ s.usb[p].seq = .hrSinkLow) →
      (4400 < s.usb[p].vbus.last → exec (.hardResetVbusTimeout p) s = .next s) ∧
      (s.usb[p].vbus.last ≤ 4400 → s.usb[p].handover = true →
        exec (.hardResetVbusTimeout p) s = .next (onUsb p (fun u => { u with seq := .none, redetect := true }) s)) ∧
      (s.usb[p].vbus.last ≤ 4400 → s.usb[p].handover = false → Completes (.hardResetVbusTimeout p) s fun t => t.usb[p].seq = .none ∧
        t.usb[p].path = .withdrawing ∧ t.usb[p].handover = true ∧ t.usb[p].redetect = true ∧ t.chan[chanOfUsb p].enabled = false ∧
        (written t.chan[chanOfUsb p]).pos = 0))

/-- A load port starts, limits, faults, retries and latches as R275 to R278 say, and every gate follows the Ride's minimum.
Soft-start ends On at V_RIDE − 0.3 V, limiting begins at the limit and ends below 0.9 of it where it was; a soft-start time-out,
an expired fault timer and a trip beyond twice the limit are counted with their cause, advance the retry counter, end in
Retry-wait or at the limit Latched, and are reported and told; the off-time ends in Soft-start or Off by the enable; enough time
On clears the retry counter; below 4.5 V every gate is off, above 5.0 V the enabled ports start, and a latch stays.
(10_load_ports.md, 19_faults.md) -/
def Obligations.LoadPorts : Prop :=
  ∀ (p : Fin 32) (s : State),
    (∀ v, s.load[p].state = .softStart →
      (s.ride.v - 300 ≤ v → exec (.loadSoftStartComplete p v) s = .next (onLoad p (fun l => { l with state := .on, tb := s.tb }) s)) ∧
      (v < s.ride.v - 300 → exec (.loadSoftStartComplete p v) s = .next s)) ∧
    (∀ i, (s.load[p].state = .softStart ∨ s.load[p].state = .on) →
      (s.load[p].limMv ≤ shuntMv s.load[p] i → exec (.loadLimitingEntry p i) s =
        .next (onLoad p (fun l => { l with fromOn := decide (s.load[p].state = .on), state := .limiting, tb := s.tb }) s)) ∧
      (shuntMv s.load[p] i < s.load[p].limMv → exec (.loadLimitingEntry p i) s = .next s)) ∧
    (∀ i, s.load[p].state = .limiting →
      (shuntMv s.load[p] i < 9 / 10 * s.load[p].limMv → exec (.loadLimitingExit p i) s =
        .next (onLoad p (fun l => { l with state := if s.load[p].fromOn then .on else .softStart, tb := s.tb }) s)) ∧
      (9 / 10 * s.load[p].limMv ≤ shuntMv s.load[p] i → exec (.loadLimitingExit p i) s = .next s)) ∧
    (∀ peak c k, (c = .loadSoftStartTimeout p peak ∧ k = .softStart ∧ s.load[p].state = .softStart ∧ passed s s.load[p].tb s.load[p].ssMs = true ∨
        c = .loadFaultTimerExpiry p peak ∧ k = .limit ∧ s.load[p].state = .limiting ∧ passed s s.load[p].tb s.load[p].tFlt = true ∨
        c = .loadFastTrip p peak ∧ k = .fastTrip ∧ 2 * s.load[p].limMv < shuntMv s.load[p] peak ∧
          (s.load[p].state = .softStart ∨ s.load[p].state = .on ∨ s.load[p].state = .limiting)) →
      Completes c s fun t =>
        t.load[p].state = (if s.load[p].retCnt ≤ s.load[p].retry then .latched else .retryWait) ∧
        t.load[p].retry = min 255 (s.load[p].retry + 1) ∧ t.load[p].tb = s.tb ∧
        t.load[p].cFast = (if k = .fastTrip then s.load[p].cFast.bump else s.load[p].cFast) ∧
        t.load[p].cLimit = (if k = .limit then s.load[p].cLimit.bump else s.load[p].cLimit) ∧
        t.load[p].cSoft = (if k = .softStart then s.load[p].cSoft.bump else s.load[p].cSoft) ∧
        t.load[p].cLatch = (if s.load[p].retCnt ≤ s.load[p].retry then s.load[p].cLatch.bump else s.load[p].cLatch) ∧
        UnitsKept (onLoad p (fun _ => t.load[p]) s) t ∧ Captures s t 0x28 4 p.val (loadCauseCode k) ∧
        (s.load[p].retry < s.load[p].retCnt → loadFaultHits k s.load[p] = false →
          Tells s t 0x0701 ([byte p.val, byte (loadCauseCode k)] ++ quant 4 peak ++ le 2 (min 255 (s.load[p].retry + 1) : Nat)))) ∧
    (s.load[p].state = .retryWait → passed s s.load[p].tb s.load[p].retOff = true →
      (loadEnabled s p = true → exec (.loadRetryOffTimeEnd p) s = .next (onLoad p (enterSoft s) s)) ∧
      (loadEnabled s p = false → exec (.loadRetryOffTimeEnd p) s = .next (onLoad p (fun l => { l with state := .off, fromOn := false }) s))) ∧
    (s.load[p].state = .on → passed s s.load[p].tb (1000 * s.load[p].retReset) = true →
      exec (.loadRetryResetInterval p) s = .next (onLoad p (fun l => { l with retry := 0 }) s)) ∧
    (∀ v, v < 4500 → Completes (.rideBelowLoadMinimum v) s fun t => t.ride = { s.ride with low := true } ∧ t.chan = s.chan ∧
      t.src = s.src ∧ t.usb = s.usb ∧
      ∀ q : Fin 32, t.load[q] = if s.load[q].state = .latched then s.load[q] else { s.load[q] with state := .off }) ∧
    (∀ v, 4500 ≤ v → exec (.rideBelowLoadMinimum v) s = .next s) ∧
    (∀ v, 5000 < v → Completes (.rideAboveLoadRelease v) s fun t => t.ride = { s.ride with low := false } ∧ t.chan = s.chan ∧
      ∀ q : Fin 32, (s.load[q].state = .latched → t.load[q] = s.load[q]) ∧
        (s.load[q].state = .off → t.load[q] = if loadEnabled t q then enterSoft s s.load[q] else s.load[q])) ∧
    (∀ v, v ≤ 5000 → exec (.rideAboveLoadRelease v) s = .next s)

/-- Temperatures are evaluated, shut the converters down and release them as chapter 12 says, and telemetry shows them. An
evaluation takes the results of the rotation that waits, sets the junction temperature to the hottest value in use, and moves
warnings and the throttle state over their thresholds with hysteresis; without Warden, the group or a rotation nothing happens.
An enabled comparator stops every channel in hardware, counted, captured and told unless a shutdown stands; the release, once
its 100 ms are over, drops its stops unless it is the third counted in an hour, then Device-stop; a sensor restored after its 60
s is valid again, its fault closed and told. The telemetry period pushes the enabled kinds once each; a deferred swap shows the
newest refresh. (12_thermal.md, 15_register_window.md, 16_mailbox_protocol.md, 19_faults.md) -/
def Obligations.ThermalAndTelemetry : Prop :=
  ∀ (s : State),
    ((wardenRuns s = false ∨ s.group[(3 : Fin 4)].lost = true ∨ s.therm.rotDue = false) → exec .temperatureEvaluation s = .next s) ∧
    (wardenRuns s = true → s.group[(3 : Fin 4)].lost = false → s.therm.rotDue = true → Completes .temperatureEvaluation s fun t =>
      (∀ i : Fin 20, t.therm.sensors[i].raw = (takeReading s i s.therm.sensors[i]).raw ∧
        t.therm.sensors[i].read = (s.therm.sensors[i].read || s.therm.sensors[i].next.isSome) ∧ t.therm.sensors[i].next = none) ∧
      t.therm.rotDue = false ∧
      t.therm.tj = maxQ ((List.range 12).map fun n => t.therm.sensors[fin20 n].used) ∧
      t.therm.tjThrottle = schmitt s.therm.tjThrottle t.therm.tj (tThr s) (halfDeg s 0x903) ∧
      (∀ n : Fin 12, t.therm.sensors[fin20 n.val].warning = (if t.therm.sensors[fin20 n.val].read then
        schmitt s.therm.sensors[fin20 n.val].warning t.therm.sensors[fin20 n.val].used (tWrn s) (halfDeg s 0x901)
        else s.therm.sensors[fin20 n.val].warning))) ∧
    (∀ k : Fin 12,
      (s.clk.vcc = false ∨ s.therm.compOff.getLsbD k.val = true ∨ s.therm.comp.getLsbD k.val = true →
        exec (.thermalComparatorTrip k) s = .next s) ∧
      (s.clk.vcc = true → s.therm.compOff.getLsbD k.val = false → s.therm.comp.getLsbD k.val = false →
        Completes (.thermalComparatorTrip k) s fun t => t.therm.comp = putBit s.therm.comp k.val true ∧ t.therm.calm = none ∧
          (∀ c : Fin 16, chanLow s c = c → t.chan[c].stops.contains .thermalHw = true) ∧
          (shutdownStands s = true → t.therm.shutCnt = s.therm.shutCnt ∧ t.fc = s.fc) ∧
          (shutdownStands s = false → t.therm.shutCnt = s.therm.shutCnt.bump ∧ Captures s t 0x39 0 0 k.val ∧
            ((∀ p : Fin 4, s.bat[p].resting = false) →
              Tells s t 0x0905 (byte k.val :: tField s.therm.sensors[fin20 k.val].used))))) ∧
    (releaseDue s = false → exec .shutdownRelease s = .next s) ∧
    (releaseDue s = true → wardenRuns s = true →
      (shutdownCounts s = false ∨ (within 360000000000 s.tb s.therm.counted).length < 2 → Completes .shutdownRelease s fun t =>
        t.therm.comp = 0 ∧ t.therm.warden = false ∧ t.therm.above = 0 ∧
        t.therm.counted = (if shutdownCounts s then [s.tb] else []) ++ within 360000000000 s.tb s.therm.counted ∧
        (∀ c : Fin 16, t.chan[c].stops.contains .thermalHw = false ∧ t.chan[c].stops.contains .thermalWarden = false) ∧
        Tells s t 0x0906 (byte (hottest s).val :: tField s.therm.sensors[hottest s].used)) ∧
      (∀ f, shutdownCounts s = true → 2 ≤ (within 360000000000 s.tb s.therm.counted).length → findFault s 0x39 0 0 = some f →
        Completes .shutdownRelease s fun t => t.dev = .deviceStop ∧ t.therm.comp = 0 ∧ t.therm.warden = false)) ∧
    (∀ i : Fin 20, (restoreReady s i = false → exec (.sensorRestored i) s = .next s) ∧
      (restoreReady s i = true → wardenRuns s = true → Completes (.sensorRestored i) s fun t =>
        t.therm.sensors[i] = { s.therm.sensors[i] with failed := false, restoring := false, devs := 0 } ∧
        (∀ j : Fin 20, j ≠ i → t.therm.sensors[j] = s.therm.sensors[j]) ∧
        (i.val < 12 → t.therm.compOff = putBit s.therm.compOff i.val false) ∧
        (∀ f, findFault s 0x38 11 (byte i.val) = some f → ∀ g ∈ t.warden.standing, g.id ≠ f.id) ∧
        Tells s t 0x0908 (byte i.val :: tField s.therm.sensors[i].used))) ∧
    ((s.mbox.ready = false ∨ param s 0x803 = 0 → exec .telemetryPeriod s = .next s) ∧
      (s.mbox.ready = true → param s 0x803 ≠ 0 → Completes .telemetryPeriod s fun t =>
        t.mbox.tlmDone = s.mbox.tlmDone ||| enabledKinds s ∧ UnitsKept s t ∧ t.snap = s.snap ∧
        t.mbox.tlmSeq = s.mbox.tlmSeq + BitVec.ofNat 32
          ((List.range 7).filter fun i => (enabledKinds s).getLsbD i && !s.mbox.tlmDone.getLsbD i).length)) ∧
    ((∀ m, s.snap.due = some m → exec .snapshotSwapDeferred s = .next { s with snap := { front := m, due := none, seq := s.snap.seq + 1 } }) ∧
      (s.snap.due = none → exec .snapshotSwapDeferred s = .next s))
end

