-- ==== Sys2Proof/Laws/State.lean ====
section
/-! SUPPORT. One lemma per field of State and per named update of one unit: the update writes its own field and no other;
and reading an element of an updated vector. -/

namespace Sys2Proof.Machine
open Sys2Proof

/-! ### Vectors -/

@[simp] theorem upd_self {α : Type} {n : Nat} (v : Vector α n) (i : Fin n) (f : α → α) :
    (upd v i f)[i.val] = f v[i.val] := by
  simp [upd]

theorem upd_other {α : Type} {n : Nat} (v : Vector α n) (i j : Fin n) (f : α → α) (h : i ≠ j) :
    (upd v i f)[j.val] = v[j.val] := by
  have h2 : i.val ≠ j.val := fun e => h (Fin.ext e)
  simp [upd, h2]

theorem upd_get {α : Type} {n : Nat} (v : Vector α n) (i j : Fin n) (f : α → α) :
    (upd v i f)[j.val] = if i = j then f v[j.val] else v[j.val] := by
  by_cases h : i = j
  · subst h; simp
  · simp [h, upd_other v i j f h]

@[simp] theorem vmapIdx_get {α β : Type} {n : Nat} (v : Vector α n) (f : Fin n → α → β) (i : Nat) (h : i < n) :
    (vmapIdx v f)[i] = f ⟨i, h⟩ v[i] := by
  simp [vmapIdx]

@[simp] theorem vmap_get {α β : Type} {n : Nat} (v : Vector α n) (f : α → β) (i : Nat) (h : i < n) :
    (vmap v f)[i] = f v[i] := by
  simp [vmap]

/-! ### Named updates -/

@[simp] theorem onChan_pending (c : Fin 16) (f : Chan → Chan) (s : State) : (onChan c f s).pending = s.pending := rfl
@[simp] theorem onChan_dev (c : Fin 16) (f : Chan → Chan) (s : State) : (onChan c f s).dev = s.dev := rfl
@[simp] theorem onChan_boot (c : Fin 16) (f : Chan → Chan) (s : State) : (onChan c f s).boot = s.boot := rfl
@[simp] theorem onChan_aon (c : Fin 16) (f : Chan → Chan) (s : State) : (onChan c f s).aon = s.aon := rfl
@[simp] theorem onChan_clk (c : Fin 16) (f : Chan → Chan) (s : State) : (onChan c f s).clk = s.clk := rfl
@[simp] theorem onChan_wires (c : Fin 16) (f : Chan → Chan) (s : State) : (onChan c f s).wires = s.wires := rfl
@[simp] theorem onChan_tb (c : Fin 16) (f : Chan → Chan) (s : State) : (onChan c f s).tb = s.tb := rfl
@[simp] theorem onChan_tbRuns (c : Fin 16) (f : Chan → Chan) (s : State) : (onChan c f s).tbRuns = s.tbRuns := rfl
@[simp] theorem onChan_lastFrame (c : Fin 16) (f : Chan → Chan) (s : State) : (onChan c f s).lastFrame = s.lastFrame := rfl
@[simp] theorem onChan_free (c : Fin 16) (f : Chan → Chan) (s : State) : (onChan c f s).free = s.free := rfl
@[simp] theorem onChan_ride (c : Fin 16) (f : Chan → Chan) (s : State) : (onChan c f s).ride = s.ride := rfl
@[simp] theorem onChan_tap (c : Fin 16) (f : Chan → Chan) (s : State) : (onChan c f s).tap = s.tap := rfl
@[simp] theorem onChan_chan (c : Fin 16) (f : Chan → Chan) (s : State) : (onChan c f s).chan = upd s.chan c f := rfl
@[simp] theorem onChan_phase (c : Fin 16) (f : Chan → Chan) (s : State) : (onChan c f s).phase = s.phase := rfl
@[simp] theorem onChan_src (c : Fin 16) (f : Chan → Chan) (s : State) : (onChan c f s).src = s.src := rfl
@[simp] theorem onChan_bat (c : Fin 16) (f : Chan → Chan) (s : State) : (onChan c f s).bat = s.bat := rfl
@[simp] theorem onChan_usb (c : Fin 16) (f : Chan → Chan) (s : State) : (onChan c f s).usb = s.usb := rfl
@[simp] theorem onChan_load (c : Fin 16) (f : Chan → Chan) (s : State) : (onChan c f s).load = s.load := rfl
@[simp] theorem onChan_vcc (c : Fin 16) (f : Chan → Chan) (s : State) : (onChan c f s).vcc = s.vcc := rfl
@[simp] theorem onChan_vdrv (c : Fin 16) (f : Chan → Chan) (s : State) : (onChan c f s).vdrv = s.vdrv := rfl
@[simp] theorem onChan_sapling (c : Fin 16) (f : Chan → Chan) (s : State) : (onChan c f s).sapling = s.sapling := rfl
@[simp] theorem onChan_group (c : Fin 16) (f : Chan → Chan) (s : State) : (onChan c f s).group = s.group := rfl
@[simp] theorem onChan_conv (c : Fin 16) (f : Chan → Chan) (s : State) : (onChan c f s).conv = s.conv := rfl
@[simp] theorem onChan_therm (c : Fin 16) (f : Chan → Chan) (s : State) : (onChan c f s).therm = s.therm := rfl
@[simp] theorem onChan_eng (c : Fin 16) (f : Chan → Chan) (s : State) : (onChan c f s).eng = s.eng := rfl
@[simp] theorem onChan_ring (c : Fin 16) (f : Chan → Chan) (s : State) : (onChan c f s).ring = s.ring := rfl
@[simp] theorem onChan_fc (c : Fin 16) (f : Chan → Chan) (s : State) : (onChan c f s).fc = s.fc := rfl
@[simp] theorem onChan_warden (c : Fin 16) (f : Chan → Chan) (s : State) : (onChan c f s).warden = s.warden := rfl
@[simp] theorem onChan_host (c : Fin 16) (f : Chan → Chan) (s : State) : (onChan c f s).host = s.host := rfl
@[simp] theorem onChan_mbox (c : Fin 16) (f : Chan → Chan) (s : State) : (onChan c f s).mbox = s.mbox := rfl
@[simp] theorem onChan_par (c : Fin 16) (f : Chan → Chan) (s : State) : (onChan c f s).par = s.par := rfl
@[simp] theorem onChan_otp (c : Fin 16) (f : Chan → Chan) (s : State) : (onChan c f s).otp = s.otp := rfl
@[simp] theorem onChan_snap (c : Fin 16) (f : Chan → Chan) (s : State) : (onChan c f s).snap = s.snap := rfl
@[simp] theorem onChan_stby (c : Fin 16) (f : Chan → Chan) (s : State) : (onChan c f s).stby = s.stby := rfl
@[simp] theorem onChan_sbus (c : Fin 16) (f : Chan → Chan) (s : State) : (onChan c f s).sbus = s.sbus := rfl

@[simp] theorem onPhase_pending (k : Fin 28) (f : Phase → Phase) (s : State) : (onPhase k f s).pending = s.pending := rfl
@[simp] theorem onPhase_dev (k : Fin 28) (f : Phase → Phase) (s : State) : (onPhase k f s).dev = s.dev := rfl
@[simp] theorem onPhase_boot (k : Fin 28) (f : Phase → Phase) (s : State) : (onPhase k f s).boot = s.boot := rfl
@[simp] theorem onPhase_aon (k : Fin 28) (f : Phase → Phase) (s : State) : (onPhase k f s).aon = s.aon := rfl
@[simp] theorem onPhase_clk (k : Fin 28) (f : Phase → Phase) (s : State) : (onPhase k f s).clk = s.clk := rfl
@[simp] theorem onPhase_wires (k : Fin 28) (f : Phase → Phase) (s : State) : (onPhase k f s).wires = s.wires := rfl
@[simp] theorem onPhase_tb (k : Fin 28) (f : Phase → Phase) (s : State) : (onPhase k f s).tb = s.tb := rfl
@[simp] theorem onPhase_tbRuns (k : Fin 28) (f : Phase → Phase) (s : State) : (onPhase k f s).tbRuns = s.tbRuns := rfl
@[simp] theorem onPhase_lastFrame (k : Fin 28) (f : Phase → Phase) (s : State) : (onPhase k f s).lastFrame = s.lastFrame := rfl
@[simp] theorem onPhase_free (k : Fin 28) (f : Phase → Phase) (s : State) : (onPhase k f s).free = s.free := rfl
@[simp] theorem onPhase_ride (k : Fin 28) (f : Phase → Phase) (s : State) : (onPhase k f s).ride = s.ride := rfl
@[simp] theorem onPhase_tap (k : Fin 28) (f : Phase → Phase) (s : State) : (onPhase k f s).tap = s.tap := rfl
@[simp] theorem onPhase_chan (k : Fin 28) (f : Phase → Phase) (s : State) : (onPhase k f s).chan = s.chan := rfl
@[simp] theorem onPhase_phase (k : Fin 28) (f : Phase → Phase) (s : State) : (onPhase k f s).phase = upd s.phase k f := rfl
@[simp] theorem onPhase_src (k : Fin 28) (f : Phase → Phase) (s : State) : (onPhase k f s).src = s.src := rfl
@[simp] theorem onPhase_bat (k : Fin 28) (f : Phase → Phase) (s : State) : (onPhase k f s).bat = s.bat := rfl
@[simp] theorem onPhase_usb (k : Fin 28) (f : Phase → Phase) (s : State) : (onPhase k f s).usb = s.usb := rfl
@[simp] theorem onPhase_load (k : Fin 28) (f : Phase → Phase) (s : State) : (onPhase k f s).load = s.load := rfl
@[simp] theorem onPhase_vcc (k : Fin 28) (f : Phase → Phase) (s : State) : (onPhase k f s).vcc = s.vcc := rfl
@[simp] theorem onPhase_vdrv (k : Fin 28) (f : Phase → Phase) (s : State) : (onPhase k f s).vdrv = s.vdrv := rfl
@[simp] theorem onPhase_sapling (k : Fin 28) (f : Phase → Phase) (s : State) : (onPhase k f s).sapling = s.sapling := rfl
@[simp] theorem onPhase_group (k : Fin 28) (f : Phase → Phase) (s : State) : (onPhase k f s).group = s.group := rfl
@[simp] theorem onPhase_conv (k : Fin 28) (f : Phase → Phase) (s : State) : (onPhase k f s).conv = s.conv := rfl
@[simp] theorem onPhase_therm (k : Fin 28) (f : Phase → Phase) (s : State) : (onPhase k f s).therm = s.therm := rfl
@[simp] theorem onPhase_eng (k : Fin 28) (f : Phase → Phase) (s : State) : (onPhase k f s).eng = s.eng := rfl
@[simp] theorem onPhase_ring (k : Fin 28) (f : Phase → Phase) (s : State) : (onPhase k f s).ring = s.ring := rfl
@[simp] theorem onPhase_fc (k : Fin 28) (f : Phase → Phase) (s : State) : (onPhase k f s).fc = s.fc := rfl
@[simp] theorem onPhase_warden (k : Fin 28) (f : Phase → Phase) (s : State) : (onPhase k f s).warden = s.warden := rfl
@[simp] theorem onPhase_host (k : Fin 28) (f : Phase → Phase) (s : State) : (onPhase k f s).host = s.host := rfl
@[simp] theorem onPhase_mbox (k : Fin 28) (f : Phase → Phase) (s : State) : (onPhase k f s).mbox = s.mbox := rfl
@[simp] theorem onPhase_par (k : Fin 28) (f : Phase → Phase) (s : State) : (onPhase k f s).par = s.par := rfl
@[simp] theorem onPhase_otp (k : Fin 28) (f : Phase → Phase) (s : State) : (onPhase k f s).otp = s.otp := rfl
@[simp] theorem onPhase_snap (k : Fin 28) (f : Phase → Phase) (s : State) : (onPhase k f s).snap = s.snap := rfl
@[simp] theorem onPhase_stby (k : Fin 28) (f : Phase → Phase) (s : State) : (onPhase k f s).stby = s.stby := rfl
@[simp] theorem onPhase_sbus (k : Fin 28) (f : Phase → Phase) (s : State) : (onPhase k f s).sbus = s.sbus := rfl

@[simp] theorem onSrc_pending (p : Fin 8) (f : Src → Src) (s : State) : (onSrc p f s).pending = s.pending := rfl
@[simp] theorem onSrc_dev (p : Fin 8) (f : Src → Src) (s : State) : (onSrc p f s).dev = s.dev := rfl
@[simp] theorem onSrc_boot (p : Fin 8) (f : Src → Src) (s : State) : (onSrc p f s).boot = s.boot := rfl
@[simp] theorem onSrc_aon (p : Fin 8) (f : Src → Src) (s : State) : (onSrc p f s).aon = s.aon := rfl
@[simp] theorem onSrc_clk (p : Fin 8) (f : Src → Src) (s : State) : (onSrc p f s).clk = s.clk := rfl
@[simp] theorem onSrc_wires (p : Fin 8) (f : Src → Src) (s : State) : (onSrc p f s).wires = s.wires := rfl
@[simp] theorem onSrc_tb (p : Fin 8) (f : Src → Src) (s : State) : (onSrc p f s).tb = s.tb := rfl
@[simp] theorem onSrc_tbRuns (p : Fin 8) (f : Src → Src) (s : State) : (onSrc p f s).tbRuns = s.tbRuns := rfl
@[simp] theorem onSrc_lastFrame (p : Fin 8) (f : Src → Src) (s : State) : (onSrc p f s).lastFrame = s.lastFrame := rfl
@[simp] theorem onSrc_free (p : Fin 8) (f : Src → Src) (s : State) : (onSrc p f s).free = s.free := rfl
@[simp] theorem onSrc_ride (p : Fin 8) (f : Src → Src) (s : State) : (onSrc p f s).ride = s.ride := rfl
@[simp] theorem onSrc_tap (p : Fin 8) (f : Src → Src) (s : State) : (onSrc p f s).tap = s.tap := rfl
@[simp] theorem onSrc_chan (p : Fin 8) (f : Src → Src) (s : State) : (onSrc p f s).chan = s.chan := rfl
@[simp] theorem onSrc_phase (p : Fin 8) (f : Src → Src) (s : State) : (onSrc p f s).phase = s.phase := rfl
@[simp] theorem onSrc_src (p : Fin 8) (f : Src → Src) (s : State) : (onSrc p f s).src = upd s.src p f := rfl
@[simp] theorem onSrc_bat (p : Fin 8) (f : Src → Src) (s : State) : (onSrc p f s).bat = s.bat := rfl
@[simp] theorem onSrc_usb (p : Fin 8) (f : Src → Src) (s : State) : (onSrc p f s).usb = s.usb := rfl
@[simp] theorem onSrc_load (p : Fin 8) (f : Src → Src) (s : State) : (onSrc p f s).load = s.load := rfl
@[simp] theorem onSrc_vcc (p : Fin 8) (f : Src → Src) (s : State) : (onSrc p f s).vcc = s.vcc := rfl
@[simp] theorem onSrc_vdrv (p : Fin 8) (f : Src → Src) (s : State) : (onSrc p f s).vdrv = s.vdrv := rfl
@[simp] theorem onSrc_sapling (p : Fin 8) (f : Src → Src) (s : State) : (onSrc p f s).sapling = s.sapling := rfl
@[simp] theorem onSrc_group (p : Fin 8) (f : Src → Src) (s : State) : (onSrc p f s).group = s.group := rfl
@[simp] theorem onSrc_conv (p : Fin 8) (f : Src → Src) (s : State) : (onSrc p f s).conv = s.conv := rfl
@[simp] theorem onSrc_therm (p : Fin 8) (f : Src → Src) (s : State) : (onSrc p f s).therm = s.therm := rfl
@[simp] theorem onSrc_eng (p : Fin 8) (f : Src → Src) (s : State) : (onSrc p f s).eng = s.eng := rfl
@[simp] theorem onSrc_ring (p : Fin 8) (f : Src → Src) (s : State) : (onSrc p f s).ring = s.ring := rfl
@[simp] theorem onSrc_fc (p : Fin 8) (f : Src → Src) (s : State) : (onSrc p f s).fc = s.fc := rfl
@[simp] theorem onSrc_warden (p : Fin 8) (f : Src → Src) (s : State) : (onSrc p f s).warden = s.warden := rfl
@[simp] theorem onSrc_host (p : Fin 8) (f : Src → Src) (s : State) : (onSrc p f s).host = s.host := rfl
@[simp] theorem onSrc_mbox (p : Fin 8) (f : Src → Src) (s : State) : (onSrc p f s).mbox = s.mbox := rfl
@[simp] theorem onSrc_par (p : Fin 8) (f : Src → Src) (s : State) : (onSrc p f s).par = s.par := rfl
@[simp] theorem onSrc_otp (p : Fin 8) (f : Src → Src) (s : State) : (onSrc p f s).otp = s.otp := rfl
@[simp] theorem onSrc_snap (p : Fin 8) (f : Src → Src) (s : State) : (onSrc p f s).snap = s.snap := rfl
@[simp] theorem onSrc_stby (p : Fin 8) (f : Src → Src) (s : State) : (onSrc p f s).stby = s.stby := rfl
@[simp] theorem onSrc_sbus (p : Fin 8) (f : Src → Src) (s : State) : (onSrc p f s).sbus = s.sbus := rfl

@[simp] theorem onBat_pending (p : Fin 4) (f : Bat → Bat) (s : State) : (onBat p f s).pending = s.pending := rfl
@[simp] theorem onBat_dev (p : Fin 4) (f : Bat → Bat) (s : State) : (onBat p f s).dev = s.dev := rfl
@[simp] theorem onBat_boot (p : Fin 4) (f : Bat → Bat) (s : State) : (onBat p f s).boot = s.boot := rfl
@[simp] theorem onBat_aon (p : Fin 4) (f : Bat → Bat) (s : State) : (onBat p f s).aon = s.aon := rfl
@[simp] theorem onBat_clk (p : Fin 4) (f : Bat → Bat) (s : State) : (onBat p f s).clk = s.clk := rfl
@[simp] theorem onBat_wires (p : Fin 4) (f : Bat → Bat) (s : State) : (onBat p f s).wires = s.wires := rfl
@[simp] theorem onBat_tb (p : Fin 4) (f : Bat → Bat) (s : State) : (onBat p f s).tb = s.tb := rfl
@[simp] theorem onBat_tbRuns (p : Fin 4) (f : Bat → Bat) (s : State) : (onBat p f s).tbRuns = s.tbRuns := rfl
@[simp] theorem onBat_lastFrame (p : Fin 4) (f : Bat → Bat) (s : State) : (onBat p f s).lastFrame = s.lastFrame := rfl
@[simp] theorem onBat_free (p : Fin 4) (f : Bat → Bat) (s : State) : (onBat p f s).free = s.free := rfl
@[simp] theorem onBat_ride (p : Fin 4) (f : Bat → Bat) (s : State) : (onBat p f s).ride = s.ride := rfl
@[simp] theorem onBat_tap (p : Fin 4) (f : Bat → Bat) (s : State) : (onBat p f s).tap = s.tap := rfl
@[simp] theorem onBat_chan (p : Fin 4) (f : Bat → Bat) (s : State) : (onBat p f s).chan = s.chan := rfl
@[simp] theorem onBat_phase (p : Fin 4) (f : Bat → Bat) (s : State) : (onBat p f s).phase = s.phase := rfl
@[simp] theorem onBat_src (p : Fin 4) (f : Bat → Bat) (s : State) : (onBat p f s).src = s.src := rfl
@[simp] theorem onBat_bat (p : Fin 4) (f : Bat → Bat) (s : State) : (onBat p f s).bat = upd s.bat p f := rfl
@[simp] theorem onBat_usb (p : Fin 4) (f : Bat → Bat) (s : State) : (onBat p f s).usb = s.usb := rfl
@[simp] theorem onBat_load (p : Fin 4) (f : Bat → Bat) (s : State) : (onBat p f s).load = s.load := rfl
@[simp] theorem onBat_vcc (p : Fin 4) (f : Bat → Bat) (s : State) : (onBat p f s).vcc = s.vcc := rfl
@[simp] theorem onBat_vdrv (p : Fin 4) (f : Bat → Bat) (s : State) : (onBat p f s).vdrv = s.vdrv := rfl
@[simp] theorem onBat_sapling (p : Fin 4) (f : Bat → Bat) (s : State) : (onBat p f s).sapling = s.sapling := rfl
@[simp] theorem onBat_group (p : Fin 4) (f : Bat → Bat) (s : State) : (onBat p f s).group = s.group := rfl
@[simp] theorem onBat_conv (p : Fin 4) (f : Bat → Bat) (s : State) : (onBat p f s).conv = s.conv := rfl
@[simp] theorem onBat_therm (p : Fin 4) (f : Bat → Bat) (s : State) : (onBat p f s).therm = s.therm := rfl
@[simp] theorem onBat_eng (p : Fin 4) (f : Bat → Bat) (s : State) : (onBat p f s).eng = s.eng := rfl
@[simp] theorem onBat_ring (p : Fin 4) (f : Bat → Bat) (s : State) : (onBat p f s).ring = s.ring := rfl
@[simp] theorem onBat_fc (p : Fin 4) (f : Bat → Bat) (s : State) : (onBat p f s).fc = s.fc := rfl
@[simp] theorem onBat_warden (p : Fin 4) (f : Bat → Bat) (s : State) : (onBat p f s).warden = s.warden := rfl
@[simp] theorem onBat_host (p : Fin 4) (f : Bat → Bat) (s : State) : (onBat p f s).host = s.host := rfl
@[simp] theorem onBat_mbox (p : Fin 4) (f : Bat → Bat) (s : State) : (onBat p f s).mbox = s.mbox := rfl
@[simp] theorem onBat_par (p : Fin 4) (f : Bat → Bat) (s : State) : (onBat p f s).par = s.par := rfl
@[simp] theorem onBat_otp (p : Fin 4) (f : Bat → Bat) (s : State) : (onBat p f s).otp = s.otp := rfl
@[simp] theorem onBat_snap (p : Fin 4) (f : Bat → Bat) (s : State) : (onBat p f s).snap = s.snap := rfl
@[simp] theorem onBat_stby (p : Fin 4) (f : Bat → Bat) (s : State) : (onBat p f s).stby = s.stby := rfl
@[simp] theorem onBat_sbus (p : Fin 4) (f : Bat → Bat) (s : State) : (onBat p f s).sbus = s.sbus := rfl

@[simp] theorem onUsb_pending (p : Fin 4) (f : Usb → Usb) (s : State) : (onUsb p f s).pending = s.pending := rfl
@[simp] theorem onUsb_dev (p : Fin 4) (f : Usb → Usb) (s : State) : (onUsb p f s).dev = s.dev := rfl
@[simp] theorem onUsb_boot (p : Fin 4) (f : Usb → Usb) (s : State) : (onUsb p f s).boot = s.boot := rfl
@[simp] theorem onUsb_aon (p : Fin 4) (f : Usb → Usb) (s : State) : (onUsb p f s).aon = s.aon := rfl
@[simp] theorem onUsb_clk (p : Fin 4) (f : Usb → Usb) (s : State) : (onUsb p f s).clk = s.clk := rfl
@[simp] theorem onUsb_wires (p : Fin 4) (f : Usb → Usb) (s : State) : (onUsb p f s).wires = s.wires := rfl
@[simp] theorem onUsb_tb (p : Fin 4) (f : Usb → Usb) (s : State) : (onUsb p f s).tb = s.tb := rfl
@[simp] theorem onUsb_tbRuns (p : Fin 4) (f : Usb → Usb) (s : State) : (onUsb p f s).tbRuns = s.tbRuns := rfl
@[simp] theorem onUsb_lastFrame (p : Fin 4) (f : Usb → Usb) (s : State) : (onUsb p f s).lastFrame = s.lastFrame := rfl
@[simp] theorem onUsb_free (p : Fin 4) (f : Usb → Usb) (s : State) : (onUsb p f s).free = s.free := rfl
@[simp] theorem onUsb_ride (p : Fin 4) (f : Usb → Usb) (s : State) : (onUsb p f s).ride = s.ride := rfl
@[simp] theorem onUsb_tap (p : Fin 4) (f : Usb → Usb) (s : State) : (onUsb p f s).tap = s.tap := rfl
@[simp] theorem onUsb_chan (p : Fin 4) (f : Usb → Usb) (s : State) : (onUsb p f s).chan = s.chan := rfl
@[simp] theorem onUsb_phase (p : Fin 4) (f : Usb → Usb) (s : State) : (onUsb p f s).phase = s.phase := rfl
@[simp] theorem onUsb_src (p : Fin 4) (f : Usb → Usb) (s : State) : (onUsb p f s).src = s.src := rfl
@[simp] theorem onUsb_bat (p : Fin 4) (f : Usb → Usb) (s : State) : (onUsb p f s).bat = s.bat := rfl
@[simp] theorem onUsb_usb (p : Fin 4) (f : Usb → Usb) (s : State) : (onUsb p f s).usb = upd s.usb p f := rfl
@[simp] theorem onUsb_load (p : Fin 4) (f : Usb → Usb) (s : State) : (onUsb p f s).load = s.load := rfl
@[simp] theorem onUsb_vcc (p : Fin 4) (f : Usb → Usb) (s : State) : (onUsb p f s).vcc = s.vcc := rfl
@[simp] theorem onUsb_vdrv (p : Fin 4) (f : Usb → Usb) (s : State) : (onUsb p f s).vdrv = s.vdrv := rfl
@[simp] theorem onUsb_sapling (p : Fin 4) (f : Usb → Usb) (s : State) : (onUsb p f s).sapling = s.sapling := rfl
@[simp] theorem onUsb_group (p : Fin 4) (f : Usb → Usb) (s : State) : (onUsb p f s).group = s.group := rfl
@[simp] theorem onUsb_conv (p : Fin 4) (f : Usb → Usb) (s : State) : (onUsb p f s).conv = s.conv := rfl
@[simp] theorem onUsb_therm (p : Fin 4) (f : Usb → Usb) (s : State) : (onUsb p f s).therm = s.therm := rfl
@[simp] theorem onUsb_eng (p : Fin 4) (f : Usb → Usb) (s : State) : (onUsb p f s).eng = s.eng := rfl
@[simp] theorem onUsb_ring (p : Fin 4) (f : Usb → Usb) (s : State) : (onUsb p f s).ring = s.ring := rfl
@[simp] theorem onUsb_fc (p : Fin 4) (f : Usb → Usb) (s : State) : (onUsb p f s).fc = s.fc := rfl
@[simp] theorem onUsb_warden (p : Fin 4) (f : Usb → Usb) (s : State) : (onUsb p f s).warden = s.warden := rfl
@[simp] theorem onUsb_host (p : Fin 4) (f : Usb → Usb) (s : State) : (onUsb p f s).host = s.host := rfl
@[simp] theorem onUsb_mbox (p : Fin 4) (f : Usb → Usb) (s : State) : (onUsb p f s).mbox = s.mbox := rfl
@[simp] theorem onUsb_par (p : Fin 4) (f : Usb → Usb) (s : State) : (onUsb p f s).par = s.par := rfl
@[simp] theorem onUsb_otp (p : Fin 4) (f : Usb → Usb) (s : State) : (onUsb p f s).otp = s.otp := rfl
@[simp] theorem onUsb_snap (p : Fin 4) (f : Usb → Usb) (s : State) : (onUsb p f s).snap = s.snap := rfl
@[simp] theorem onUsb_stby (p : Fin 4) (f : Usb → Usb) (s : State) : (onUsb p f s).stby = s.stby := rfl
@[simp] theorem onUsb_sbus (p : Fin 4) (f : Usb → Usb) (s : State) : (onUsb p f s).sbus = s.sbus := rfl

@[simp] theorem onLoad_pending (p : Fin 32) (f : Load → Load) (s : State) : (onLoad p f s).pending = s.pending := rfl
@[simp] theorem onLoad_dev (p : Fin 32) (f : Load → Load) (s : State) : (onLoad p f s).dev = s.dev := rfl
@[simp] theorem onLoad_boot (p : Fin 32) (f : Load → Load) (s : State) : (onLoad p f s).boot = s.boot := rfl
@[simp] theorem onLoad_aon (p : Fin 32) (f : Load → Load) (s : State) : (onLoad p f s).aon = s.aon := rfl
@[simp] theorem onLoad_clk (p : Fin 32) (f : Load → Load) (s : State) : (onLoad p f s).clk = s.clk := rfl
@[simp] theorem onLoad_wires (p : Fin 32) (f : Load → Load) (s : State) : (onLoad p f s).wires = s.wires := rfl
@[simp] theorem onLoad_tb (p : Fin 32) (f : Load → Load) (s : State) : (onLoad p f s).tb = s.tb := rfl
@[simp] theorem onLoad_tbRuns (p : Fin 32) (f : Load → Load) (s : State) : (onLoad p f s).tbRuns = s.tbRuns := rfl
@[simp] theorem onLoad_lastFrame (p : Fin 32) (f : Load → Load) (s : State) : (onLoad p f s).lastFrame = s.lastFrame := rfl
@[simp] theorem onLoad_free (p : Fin 32) (f : Load → Load) (s : State) : (onLoad p f s).free = s.free := rfl
@[simp] theorem onLoad_ride (p : Fin 32) (f : Load → Load) (s : State) : (onLoad p f s).ride = s.ride := rfl
@[simp] theorem onLoad_tap (p : Fin 32) (f : Load → Load) (s : State) : (onLoad p f s).tap = s.tap := rfl
@[simp] theorem onLoad_chan (p : Fin 32) (f : Load → Load) (s : State) : (onLoad p f s).chan = s.chan := rfl
@[simp] theorem onLoad_phase (p : Fin 32) (f : Load → Load) (s : State) : (onLoad p f s).phase = s.phase := rfl
@[simp] theorem onLoad_src (p : Fin 32) (f : Load → Load) (s : State) : (onLoad p f s).src = s.src := rfl
@[simp] theorem onLoad_bat (p : Fin 32) (f : Load → Load) (s : State) : (onLoad p f s).bat = s.bat := rfl
@[simp] theorem onLoad_usb (p : Fin 32) (f : Load → Load) (s : State) : (onLoad p f s).usb = s.usb := rfl
@[simp] theorem onLoad_load (p : Fin 32) (f : Load → Load) (s : State) : (onLoad p f s).load = upd s.load p f := rfl
@[simp] theorem onLoad_vcc (p : Fin 32) (f : Load → Load) (s : State) : (onLoad p f s).vcc = s.vcc := rfl
@[simp] theorem onLoad_vdrv (p : Fin 32) (f : Load → Load) (s : State) : (onLoad p f s).vdrv = s.vdrv := rfl
@[simp] theorem onLoad_sapling (p : Fin 32) (f : Load → Load) (s : State) : (onLoad p f s).sapling = s.sapling := rfl
@[simp] theorem onLoad_group (p : Fin 32) (f : Load → Load) (s : State) : (onLoad p f s).group = s.group := rfl
@[simp] theorem onLoad_conv (p : Fin 32) (f : Load → Load) (s : State) : (onLoad p f s).conv = s.conv := rfl
@[simp] theorem onLoad_therm (p : Fin 32) (f : Load → Load) (s : State) : (onLoad p f s).therm = s.therm := rfl
@[simp] theorem onLoad_eng (p : Fin 32) (f : Load → Load) (s : State) : (onLoad p f s).eng = s.eng := rfl
@[simp] theorem onLoad_ring (p : Fin 32) (f : Load → Load) (s : State) : (onLoad p f s).ring = s.ring := rfl
@[simp] theorem onLoad_fc (p : Fin 32) (f : Load → Load) (s : State) : (onLoad p f s).fc = s.fc := rfl
@[simp] theorem onLoad_warden (p : Fin 32) (f : Load → Load) (s : State) : (onLoad p f s).warden = s.warden := rfl
@[simp] theorem onLoad_host (p : Fin 32) (f : Load → Load) (s : State) : (onLoad p f s).host = s.host := rfl
@[simp] theorem onLoad_mbox (p : Fin 32) (f : Load → Load) (s : State) : (onLoad p f s).mbox = s.mbox := rfl
@[simp] theorem onLoad_par (p : Fin 32) (f : Load → Load) (s : State) : (onLoad p f s).par = s.par := rfl
@[simp] theorem onLoad_otp (p : Fin 32) (f : Load → Load) (s : State) : (onLoad p f s).otp = s.otp := rfl
@[simp] theorem onLoad_snap (p : Fin 32) (f : Load → Load) (s : State) : (onLoad p f s).snap = s.snap := rfl
@[simp] theorem onLoad_stby (p : Fin 32) (f : Load → Load) (s : State) : (onLoad p f s).stby = s.stby := rfl
@[simp] theorem onLoad_sbus (p : Fin 32) (f : Load → Load) (s : State) : (onLoad p f s).sbus = s.sbus := rfl

@[simp] theorem onGroup_pending (g : Fin 4) (f : Group → Group) (s : State) : (onGroup g f s).pending = s.pending := rfl
@[simp] theorem onGroup_dev (g : Fin 4) (f : Group → Group) (s : State) : (onGroup g f s).dev = s.dev := rfl
@[simp] theorem onGroup_boot (g : Fin 4) (f : Group → Group) (s : State) : (onGroup g f s).boot = s.boot := rfl
@[simp] theorem onGroup_aon (g : Fin 4) (f : Group → Group) (s : State) : (onGroup g f s).aon = s.aon := rfl
@[simp] theorem onGroup_clk (g : Fin 4) (f : Group → Group) (s : State) : (onGroup g f s).clk = s.clk := rfl
@[simp] theorem onGroup_wires (g : Fin 4) (f : Group → Group) (s : State) : (onGroup g f s).wires = s.wires := rfl
@[simp] theorem onGroup_tb (g : Fin 4) (f : Group → Group) (s : State) : (onGroup g f s).tb = s.tb := rfl
@[simp] theorem onGroup_tbRuns (g : Fin 4) (f : Group → Group) (s : State) : (onGroup g f s).tbRuns = s.tbRuns := rfl
@[simp] theorem onGroup_lastFrame (g : Fin 4) (f : Group → Group) (s : State) : (onGroup g f s).lastFrame = s.lastFrame := rfl
@[simp] theorem onGroup_free (g : Fin 4) (f : Group → Group) (s : State) : (onGroup g f s).free = s.free := rfl
@[simp] theorem onGroup_ride (g : Fin 4) (f : Group → Group) (s : State) : (onGroup g f s).ride = s.ride := rfl
@[simp] theorem onGroup_tap (g : Fin 4) (f : Group → Group) (s : State) : (onGroup g f s).tap = s.tap := rfl
@[simp] theorem onGroup_chan (g : Fin 4) (f : Group → Group) (s : State) : (onGroup g f s).chan = s.chan := rfl
@[simp] theorem onGroup_phase (g : Fin 4) (f : Group → Group) (s : State) : (onGroup g f s).phase = s.phase := rfl
@[simp] theorem onGroup_src (g : Fin 4) (f : Group → Group) (s : State) : (onGroup g f s).src = s.src := rfl
@[simp] theorem onGroup_bat (g : Fin 4) (f : Group → Group) (s : State) : (onGroup g f s).bat = s.bat := rfl
@[simp] theorem onGroup_usb (g : Fin 4) (f : Group → Group) (s : State) : (onGroup g f s).usb = s.usb := rfl
@[simp] theorem onGroup_load (g : Fin 4) (f : Group → Group) (s : State) : (onGroup g f s).load = s.load := rfl
@[simp] theorem onGroup_vcc (g : Fin 4) (f : Group → Group) (s : State) : (onGroup g f s).vcc = s.vcc := rfl
@[simp] theorem onGroup_vdrv (g : Fin 4) (f : Group → Group) (s : State) : (onGroup g f s).vdrv = s.vdrv := rfl
@[simp] theorem onGroup_sapling (g : Fin 4) (f : Group → Group) (s : State) : (onGroup g f s).sapling = s.sapling := rfl
@[simp] theorem onGroup_group (g : Fin 4) (f : Group → Group) (s : State) : (onGroup g f s).group = upd s.group g f := rfl
@[simp] theorem onGroup_conv (g : Fin 4) (f : Group → Group) (s : State) : (onGroup g f s).conv = s.conv := rfl
@[simp] theorem onGroup_therm (g : Fin 4) (f : Group → Group) (s : State) : (onGroup g f s).therm = s.therm := rfl
@[simp] theorem onGroup_eng (g : Fin 4) (f : Group → Group) (s : State) : (onGroup g f s).eng = s.eng := rfl
@[simp] theorem onGroup_ring (g : Fin 4) (f : Group → Group) (s : State) : (onGroup g f s).ring = s.ring := rfl
@[simp] theorem onGroup_fc (g : Fin 4) (f : Group → Group) (s : State) : (onGroup g f s).fc = s.fc := rfl
@[simp] theorem onGroup_warden (g : Fin 4) (f : Group → Group) (s : State) : (onGroup g f s).warden = s.warden := rfl
@[simp] theorem onGroup_host (g : Fin 4) (f : Group → Group) (s : State) : (onGroup g f s).host = s.host := rfl
@[simp] theorem onGroup_mbox (g : Fin 4) (f : Group → Group) (s : State) : (onGroup g f s).mbox = s.mbox := rfl
@[simp] theorem onGroup_par (g : Fin 4) (f : Group → Group) (s : State) : (onGroup g f s).par = s.par := rfl
@[simp] theorem onGroup_otp (g : Fin 4) (f : Group → Group) (s : State) : (onGroup g f s).otp = s.otp := rfl
@[simp] theorem onGroup_snap (g : Fin 4) (f : Group → Group) (s : State) : (onGroup g f s).snap = s.snap := rfl
@[simp] theorem onGroup_stby (g : Fin 4) (f : Group → Group) (s : State) : (onGroup g f s).stby = s.stby := rfl
@[simp] theorem onGroup_sbus (g : Fin 4) (f : Group → Group) (s : State) : (onGroup g f s).sbus = s.sbus := rfl

@[simp] theorem onConv_pending (c : Fin 16) (f : Conv → Conv) (s : State) : (onConv c f s).pending = s.pending := rfl
@[simp] theorem onConv_dev (c : Fin 16) (f : Conv → Conv) (s : State) : (onConv c f s).dev = s.dev := rfl
@[simp] theorem onConv_boot (c : Fin 16) (f : Conv → Conv) (s : State) : (onConv c f s).boot = s.boot := rfl
@[simp] theorem onConv_aon (c : Fin 16) (f : Conv → Conv) (s : State) : (onConv c f s).aon = s.aon := rfl
@[simp] theorem onConv_clk (c : Fin 16) (f : Conv → Conv) (s : State) : (onConv c f s).clk = s.clk := rfl
@[simp] theorem onConv_wires (c : Fin 16) (f : Conv → Conv) (s : State) : (onConv c f s).wires = s.wires := rfl
@[simp] theorem onConv_tb (c : Fin 16) (f : Conv → Conv) (s : State) : (onConv c f s).tb = s.tb := rfl
@[simp] theorem onConv_tbRuns (c : Fin 16) (f : Conv → Conv) (s : State) : (onConv c f s).tbRuns = s.tbRuns := rfl
@[simp] theorem onConv_lastFrame (c : Fin 16) (f : Conv → Conv) (s : State) : (onConv c f s).lastFrame = s.lastFrame := rfl
@[simp] theorem onConv_free (c : Fin 16) (f : Conv → Conv) (s : State) : (onConv c f s).free = s.free := rfl
@[simp] theorem onConv_ride (c : Fin 16) (f : Conv → Conv) (s : State) : (onConv c f s).ride = s.ride := rfl
@[simp] theorem onConv_tap (c : Fin 16) (f : Conv → Conv) (s : State) : (onConv c f s).tap = s.tap := rfl
@[simp] theorem onConv_chan (c : Fin 16) (f : Conv → Conv) (s : State) : (onConv c f s).chan = s.chan := rfl
@[simp] theorem onConv_phase (c : Fin 16) (f : Conv → Conv) (s : State) : (onConv c f s).phase = s.phase := rfl
@[simp] theorem onConv_src (c : Fin 16) (f : Conv → Conv) (s : State) : (onConv c f s).src = s.src := rfl
@[simp] theorem onConv_bat (c : Fin 16) (f : Conv → Conv) (s : State) : (onConv c f s).bat = s.bat := rfl
@[simp] theorem onConv_usb (c : Fin 16) (f : Conv → Conv) (s : State) : (onConv c f s).usb = s.usb := rfl
@[simp] theorem onConv_load (c : Fin 16) (f : Conv → Conv) (s : State) : (onConv c f s).load = s.load := rfl
@[simp] theorem onConv_vcc (c : Fin 16) (f : Conv → Conv) (s : State) : (onConv c f s).vcc = s.vcc := rfl
@[simp] theorem onConv_vdrv (c : Fin 16) (f : Conv → Conv) (s : State) : (onConv c f s).vdrv = s.vdrv := rfl
@[simp] theorem onConv_sapling (c : Fin 16) (f : Conv → Conv) (s : State) : (onConv c f s).sapling = s.sapling := rfl
@[simp] theorem onConv_group (c : Fin 16) (f : Conv → Conv) (s : State) : (onConv c f s).group = s.group := rfl
@[simp] theorem onConv_conv (c : Fin 16) (f : Conv → Conv) (s : State) : (onConv c f s).conv = upd s.conv c f := rfl
@[simp] theorem onConv_therm (c : Fin 16) (f : Conv → Conv) (s : State) : (onConv c f s).therm = s.therm := rfl
@[simp] theorem onConv_eng (c : Fin 16) (f : Conv → Conv) (s : State) : (onConv c f s).eng = s.eng := rfl
@[simp] theorem onConv_ring (c : Fin 16) (f : Conv → Conv) (s : State) : (onConv c f s).ring = s.ring := rfl
@[simp] theorem onConv_fc (c : Fin 16) (f : Conv → Conv) (s : State) : (onConv c f s).fc = s.fc := rfl
@[simp] theorem onConv_warden (c : Fin 16) (f : Conv → Conv) (s : State) : (onConv c f s).warden = s.warden := rfl
@[simp] theorem onConv_host (c : Fin 16) (f : Conv → Conv) (s : State) : (onConv c f s).host = s.host := rfl
@[simp] theorem onConv_mbox (c : Fin 16) (f : Conv → Conv) (s : State) : (onConv c f s).mbox = s.mbox := rfl
@[simp] theorem onConv_par (c : Fin 16) (f : Conv → Conv) (s : State) : (onConv c f s).par = s.par := rfl
@[simp] theorem onConv_otp (c : Fin 16) (f : Conv → Conv) (s : State) : (onConv c f s).otp = s.otp := rfl
@[simp] theorem onConv_snap (c : Fin 16) (f : Conv → Conv) (s : State) : (onConv c f s).snap = s.snap := rfl
@[simp] theorem onConv_stby (c : Fin 16) (f : Conv → Conv) (s : State) : (onConv c f s).stby = s.stby := rfl
@[simp] theorem onConv_sbus (c : Fin 16) (f : Conv → Conv) (s : State) : (onConv c f s).sbus = s.sbus := rfl

@[simp] theorem onEng_pending (e : Fin 12) (f : Engine → Engine) (s : State) : (onEng e f s).pending = s.pending := rfl
@[simp] theorem onEng_dev (e : Fin 12) (f : Engine → Engine) (s : State) : (onEng e f s).dev = s.dev := rfl
@[simp] theorem onEng_boot (e : Fin 12) (f : Engine → Engine) (s : State) : (onEng e f s).boot = s.boot := rfl
@[simp] theorem onEng_aon (e : Fin 12) (f : Engine → Engine) (s : State) : (onEng e f s).aon = s.aon := rfl
@[simp] theorem onEng_clk (e : Fin 12) (f : Engine → Engine) (s : State) : (onEng e f s).clk = s.clk := rfl
@[simp] theorem onEng_wires (e : Fin 12) (f : Engine → Engine) (s : State) : (onEng e f s).wires = s.wires := rfl
@[simp] theorem onEng_tb (e : Fin 12) (f : Engine → Engine) (s : State) : (onEng e f s).tb = s.tb := rfl
@[simp] theorem onEng_tbRuns (e : Fin 12) (f : Engine → Engine) (s : State) : (onEng e f s).tbRuns = s.tbRuns := rfl
@[simp] theorem onEng_lastFrame (e : Fin 12) (f : Engine → Engine) (s : State) : (onEng e f s).lastFrame = s.lastFrame := rfl
@[simp] theorem onEng_free (e : Fin 12) (f : Engine → Engine) (s : State) : (onEng e f s).free = s.free := rfl
@[simp] theorem onEng_ride (e : Fin 12) (f : Engine → Engine) (s : State) : (onEng e f s).ride = s.ride := rfl
@[simp] theorem onEng_tap (e : Fin 12) (f : Engine → Engine) (s : State) : (onEng e f s).tap = s.tap := rfl
@[simp] theorem onEng_chan (e : Fin 12) (f : Engine → Engine) (s : State) : (onEng e f s).chan = s.chan := rfl
@[simp] theorem onEng_phase (e : Fin 12) (f : Engine → Engine) (s : State) : (onEng e f s).phase = s.phase := rfl
@[simp] theorem onEng_src (e : Fin 12) (f : Engine → Engine) (s : State) : (onEng e f s).src = s.src := rfl
@[simp] theorem onEng_bat (e : Fin 12) (f : Engine → Engine) (s : State) : (onEng e f s).bat = s.bat := rfl
@[simp] theorem onEng_usb (e : Fin 12) (f : Engine → Engine) (s : State) : (onEng e f s).usb = s.usb := rfl
@[simp] theorem onEng_load (e : Fin 12) (f : Engine → Engine) (s : State) : (onEng e f s).load = s.load := rfl
@[simp] theorem onEng_vcc (e : Fin 12) (f : Engine → Engine) (s : State) : (onEng e f s).vcc = s.vcc := rfl
@[simp] theorem onEng_vdrv (e : Fin 12) (f : Engine → Engine) (s : State) : (onEng e f s).vdrv = s.vdrv := rfl
@[simp] theorem onEng_sapling (e : Fin 12) (f : Engine → Engine) (s : State) : (onEng e f s).sapling = s.sapling := rfl
@[simp] theorem onEng_group (e : Fin 12) (f : Engine → Engine) (s : State) : (onEng e f s).group = s.group := rfl
@[simp] theorem onEng_conv (e : Fin 12) (f : Engine → Engine) (s : State) : (onEng e f s).conv = s.conv := rfl
@[simp] theorem onEng_therm (e : Fin 12) (f : Engine → Engine) (s : State) : (onEng e f s).therm = s.therm := rfl
@[simp] theorem onEng_eng (e : Fin 12) (f : Engine → Engine) (s : State) : (onEng e f s).eng = upd s.eng e f := rfl
@[simp] theorem onEng_ring (e : Fin 12) (f : Engine → Engine) (s : State) : (onEng e f s).ring = s.ring := rfl
@[simp] theorem onEng_fc (e : Fin 12) (f : Engine → Engine) (s : State) : (onEng e f s).fc = s.fc := rfl
@[simp] theorem onEng_warden (e : Fin 12) (f : Engine → Engine) (s : State) : (onEng e f s).warden = s.warden := rfl
@[simp] theorem onEng_host (e : Fin 12) (f : Engine → Engine) (s : State) : (onEng e f s).host = s.host := rfl
@[simp] theorem onEng_mbox (e : Fin 12) (f : Engine → Engine) (s : State) : (onEng e f s).mbox = s.mbox := rfl
@[simp] theorem onEng_par (e : Fin 12) (f : Engine → Engine) (s : State) : (onEng e f s).par = s.par := rfl
@[simp] theorem onEng_otp (e : Fin 12) (f : Engine → Engine) (s : State) : (onEng e f s).otp = s.otp := rfl
@[simp] theorem onEng_snap (e : Fin 12) (f : Engine → Engine) (s : State) : (onEng e f s).snap = s.snap := rfl
@[simp] theorem onEng_stby (e : Fin 12) (f : Engine → Engine) (s : State) : (onEng e f s).stby = s.stby := rfl
@[simp] theorem onEng_sbus (e : Fin 12) (f : Engine → Engine) (s : State) : (onEng e f s).sbus = s.sbus := rfl

@[simp] theorem onSensor_pending (i : Fin 20) (f : Sensor → Sensor) (s : State) : (onSensor i f s).pending = s.pending := rfl
@[simp] theorem onSensor_dev (i : Fin 20) (f : Sensor → Sensor) (s : State) : (onSensor i f s).dev = s.dev := rfl
@[simp] theorem onSensor_boot (i : Fin 20) (f : Sensor → Sensor) (s : State) : (onSensor i f s).boot = s.boot := rfl
@[simp] theorem onSensor_aon (i : Fin 20) (f : Sensor → Sensor) (s : State) : (onSensor i f s).aon = s.aon := rfl
@[simp] theorem onSensor_clk (i : Fin 20) (f : Sensor → Sensor) (s : State) : (onSensor i f s).clk = s.clk := rfl
@[simp] theorem onSensor_wires (i : Fin 20) (f : Sensor → Sensor) (s : State) : (onSensor i f s).wires = s.wires := rfl
@[simp] theorem onSensor_tb (i : Fin 20) (f : Sensor → Sensor) (s : State) : (onSensor i f s).tb = s.tb := rfl
@[simp] theorem onSensor_tbRuns (i : Fin 20) (f : Sensor → Sensor) (s : State) : (onSensor i f s).tbRuns = s.tbRuns := rfl
@[simp] theorem onSensor_lastFrame (i : Fin 20) (f : Sensor → Sensor) (s : State) : (onSensor i f s).lastFrame = s.lastFrame := rfl
@[simp] theorem onSensor_free (i : Fin 20) (f : Sensor → Sensor) (s : State) : (onSensor i f s).free = s.free := rfl
@[simp] theorem onSensor_ride (i : Fin 20) (f : Sensor → Sensor) (s : State) : (onSensor i f s).ride = s.ride := rfl
@[simp] theorem onSensor_tap (i : Fin 20) (f : Sensor → Sensor) (s : State) : (onSensor i f s).tap = s.tap := rfl
@[simp] theorem onSensor_chan (i : Fin 20) (f : Sensor → Sensor) (s : State) : (onSensor i f s).chan = s.chan := rfl
@[simp] theorem onSensor_phase (i : Fin 20) (f : Sensor → Sensor) (s : State) : (onSensor i f s).phase = s.phase := rfl
@[simp] theorem onSensor_src (i : Fin 20) (f : Sensor → Sensor) (s : State) : (onSensor i f s).src = s.src := rfl
@[simp] theorem onSensor_bat (i : Fin 20) (f : Sensor → Sensor) (s : State) : (onSensor i f s).bat = s.bat := rfl
@[simp] theorem onSensor_usb (i : Fin 20) (f : Sensor → Sensor) (s : State) : (onSensor i f s).usb = s.usb := rfl
@[simp] theorem onSensor_load (i : Fin 20) (f : Sensor → Sensor) (s : State) : (onSensor i f s).load = s.load := rfl
@[simp] theorem onSensor_vcc (i : Fin 20) (f : Sensor → Sensor) (s : State) : (onSensor i f s).vcc = s.vcc := rfl
@[simp] theorem onSensor_vdrv (i : Fin 20) (f : Sensor → Sensor) (s : State) : (onSensor i f s).vdrv = s.vdrv := rfl
@[simp] theorem onSensor_sapling (i : Fin 20) (f : Sensor → Sensor) (s : State) : (onSensor i f s).sapling = s.sapling := rfl
@[simp] theorem onSensor_group (i : Fin 20) (f : Sensor → Sensor) (s : State) : (onSensor i f s).group = s.group := rfl
@[simp] theorem onSensor_conv (i : Fin 20) (f : Sensor → Sensor) (s : State) : (onSensor i f s).conv = s.conv := rfl
@[simp] theorem onSensor_therm (i : Fin 20) (f : Sensor → Sensor) (s : State) : (onSensor i f s).therm = { s.therm with sensors := upd s.therm.sensors i f } := rfl
@[simp] theorem onSensor_eng (i : Fin 20) (f : Sensor → Sensor) (s : State) : (onSensor i f s).eng = s.eng := rfl
@[simp] theorem onSensor_ring (i : Fin 20) (f : Sensor → Sensor) (s : State) : (onSensor i f s).ring = s.ring := rfl
@[simp] theorem onSensor_fc (i : Fin 20) (f : Sensor → Sensor) (s : State) : (onSensor i f s).fc = s.fc := rfl
@[simp] theorem onSensor_warden (i : Fin 20) (f : Sensor → Sensor) (s : State) : (onSensor i f s).warden = s.warden := rfl
@[simp] theorem onSensor_host (i : Fin 20) (f : Sensor → Sensor) (s : State) : (onSensor i f s).host = s.host := rfl
@[simp] theorem onSensor_mbox (i : Fin 20) (f : Sensor → Sensor) (s : State) : (onSensor i f s).mbox = s.mbox := rfl
@[simp] theorem onSensor_par (i : Fin 20) (f : Sensor → Sensor) (s : State) : (onSensor i f s).par = s.par := rfl
@[simp] theorem onSensor_otp (i : Fin 20) (f : Sensor → Sensor) (s : State) : (onSensor i f s).otp = s.otp := rfl
@[simp] theorem onSensor_snap (i : Fin 20) (f : Sensor → Sensor) (s : State) : (onSensor i f s).snap = s.snap := rfl
@[simp] theorem onSensor_stby (i : Fin 20) (f : Sensor → Sensor) (s : State) : (onSensor i f s).stby = s.stby := rfl
@[simp] theorem onSensor_sbus (i : Fin 20) (f : Sensor → Sensor) (s : State) : (onSensor i f s).sbus = s.sbus := rfl

@[simp] theorem putRing_pending (q : Fin 16) (r : Ring) (s : State) : (putRing q r s).pending = s.pending := rfl
@[simp] theorem putRing_dev (q : Fin 16) (r : Ring) (s : State) : (putRing q r s).dev = s.dev := rfl
@[simp] theorem putRing_boot (q : Fin 16) (r : Ring) (s : State) : (putRing q r s).boot = s.boot := rfl
@[simp] theorem putRing_aon (q : Fin 16) (r : Ring) (s : State) : (putRing q r s).aon = s.aon := rfl
@[simp] theorem putRing_clk (q : Fin 16) (r : Ring) (s : State) : (putRing q r s).clk = s.clk := rfl
@[simp] theorem putRing_wires (q : Fin 16) (r : Ring) (s : State) : (putRing q r s).wires = s.wires := rfl
@[simp] theorem putRing_tb (q : Fin 16) (r : Ring) (s : State) : (putRing q r s).tb = s.tb := rfl
@[simp] theorem putRing_tbRuns (q : Fin 16) (r : Ring) (s : State) : (putRing q r s).tbRuns = s.tbRuns := rfl
@[simp] theorem putRing_lastFrame (q : Fin 16) (r : Ring) (s : State) : (putRing q r s).lastFrame = s.lastFrame := rfl
@[simp] theorem putRing_free (q : Fin 16) (r : Ring) (s : State) : (putRing q r s).free = s.free := rfl
@[simp] theorem putRing_ride (q : Fin 16) (r : Ring) (s : State) : (putRing q r s).ride = s.ride := rfl
@[simp] theorem putRing_tap (q : Fin 16) (r : Ring) (s : State) : (putRing q r s).tap = s.tap := rfl
@[simp] theorem putRing_chan (q : Fin 16) (r : Ring) (s : State) : (putRing q r s).chan = s.chan := rfl
@[simp] theorem putRing_phase (q : Fin 16) (r : Ring) (s : State) : (putRing q r s).phase = s.phase := rfl
@[simp] theorem putRing_src (q : Fin 16) (r : Ring) (s : State) : (putRing q r s).src = s.src := rfl
@[simp] theorem putRing_bat (q : Fin 16) (r : Ring) (s : State) : (putRing q r s).bat = s.bat := rfl
@[simp] theorem putRing_usb (q : Fin 16) (r : Ring) (s : State) : (putRing q r s).usb = s.usb := rfl
@[simp] theorem putRing_load (q : Fin 16) (r : Ring) (s : State) : (putRing q r s).load = s.load := rfl
@[simp] theorem putRing_vcc (q : Fin 16) (r : Ring) (s : State) : (putRing q r s).vcc = s.vcc := rfl
@[simp] theorem putRing_vdrv (q : Fin 16) (r : Ring) (s : State) : (putRing q r s).vdrv = s.vdrv := rfl
@[simp] theorem putRing_sapling (q : Fin 16) (r : Ring) (s : State) : (putRing q r s).sapling = s.sapling := rfl
@[simp] theorem putRing_group (q : Fin 16) (r : Ring) (s : State) : (putRing q r s).group = s.group := rfl
@[simp] theorem putRing_conv (q : Fin 16) (r : Ring) (s : State) : (putRing q r s).conv = s.conv := rfl
@[simp] theorem putRing_therm (q : Fin 16) (r : Ring) (s : State) : (putRing q r s).therm = s.therm := rfl
@[simp] theorem putRing_eng (q : Fin 16) (r : Ring) (s : State) : (putRing q r s).eng = s.eng := rfl
@[simp] theorem putRing_ring (q : Fin 16) (r : Ring) (s : State) : (putRing q r s).ring = s.ring.set q r := rfl
@[simp] theorem putRing_fc (q : Fin 16) (r : Ring) (s : State) : (putRing q r s).fc = s.fc := rfl
@[simp] theorem putRing_warden (q : Fin 16) (r : Ring) (s : State) : (putRing q r s).warden = s.warden := rfl
@[simp] theorem putRing_host (q : Fin 16) (r : Ring) (s : State) : (putRing q r s).host = s.host := rfl
@[simp] theorem putRing_mbox (q : Fin 16) (r : Ring) (s : State) : (putRing q r s).mbox = s.mbox := rfl
@[simp] theorem putRing_par (q : Fin 16) (r : Ring) (s : State) : (putRing q r s).par = s.par := rfl
@[simp] theorem putRing_otp (q : Fin 16) (r : Ring) (s : State) : (putRing q r s).otp = s.otp := rfl
@[simp] theorem putRing_snap (q : Fin 16) (r : Ring) (s : State) : (putRing q r s).snap = s.snap := rfl
@[simp] theorem putRing_stby (q : Fin 16) (r : Ring) (s : State) : (putRing q r s).stby = s.stby := rfl
@[simp] theorem putRing_sbus (q : Fin 16) (r : Ring) (s : State) : (putRing q r s).sbus = s.sbus := rfl

end Sys2Proof.Machine
end

