-- ==== Sys2Proof/Laws/Ops.lean ====
section
/-! SUPPORT. The frame of the shared operations: one lemma per field of State that an operation leaves alone, and per
field of the collector, of Warden, of the host window and of the mailbox that it does not write. -/

namespace Sys2Proof.Machine
open Sys2Proof

/-! ### armAlert -/

@[simp] theorem armAlert_pending (b : State) (s : State) : (armAlert b s).pending = s.pending := by
    unfold armAlert; simp only []; split <;> rfl
@[simp] theorem armAlert_dev (b : State) (s : State) : (armAlert b s).dev = s.dev := by
    unfold armAlert; simp only []; split <;> rfl
@[simp] theorem armAlert_boot (b : State) (s : State) : (armAlert b s).boot = s.boot := by
    unfold armAlert; simp only []; split <;> rfl
@[simp] theorem armAlert_aon (b : State) (s : State) : (armAlert b s).aon = s.aon := by
    unfold armAlert; simp only []; split <;> rfl
@[simp] theorem armAlert_clk (b : State) (s : State) : (armAlert b s).clk = s.clk := by
    unfold armAlert; simp only []; split <;> rfl
@[simp] theorem armAlert_wires (b : State) (s : State) : (armAlert b s).wires = s.wires := by
    unfold armAlert; simp only []; split <;> rfl
@[simp] theorem armAlert_tb (b : State) (s : State) : (armAlert b s).tb = s.tb := by
    unfold armAlert; simp only []; split <;> rfl
@[simp] theorem armAlert_tbRuns (b : State) (s : State) : (armAlert b s).tbRuns = s.tbRuns := by
    unfold armAlert; simp only []; split <;> rfl
@[simp] theorem armAlert_lastFrame (b : State) (s : State) : (armAlert b s).lastFrame = s.lastFrame := by
    unfold armAlert; simp only []; split <;> rfl
@[simp] theorem armAlert_free (b : State) (s : State) : (armAlert b s).free = s.free := by
    unfold armAlert; simp only []; split <;> rfl
@[simp] theorem armAlert_ride (b : State) (s : State) : (armAlert b s).ride = s.ride := by
    unfold armAlert; simp only []; split <;> rfl
@[simp] theorem armAlert_tap (b : State) (s : State) : (armAlert b s).tap = s.tap := by
    unfold armAlert; simp only []; split <;> rfl
@[simp] theorem armAlert_chan (b : State) (s : State) : (armAlert b s).chan = s.chan := by
    unfold armAlert; simp only []; split <;> rfl
@[simp] theorem armAlert_phase (b : State) (s : State) : (armAlert b s).phase = s.phase := by
    unfold armAlert; simp only []; split <;> rfl
@[simp] theorem armAlert_src (b : State) (s : State) : (armAlert b s).src = s.src := by
    unfold armAlert; simp only []; split <;> rfl
@[simp] theorem armAlert_bat (b : State) (s : State) : (armAlert b s).bat = s.bat := by
    unfold armAlert; simp only []; split <;> rfl
@[simp] theorem armAlert_usb (b : State) (s : State) : (armAlert b s).usb = s.usb := by
    unfold armAlert; simp only []; split <;> rfl
@[simp] theorem armAlert_load (b : State) (s : State) : (armAlert b s).load = s.load := by
    unfold armAlert; simp only []; split <;> rfl
@[simp] theorem armAlert_vcc (b : State) (s : State) : (armAlert b s).vcc = s.vcc := by
    unfold armAlert; simp only []; split <;> rfl
@[simp] theorem armAlert_vdrv (b : State) (s : State) : (armAlert b s).vdrv = s.vdrv := by
    unfold armAlert; simp only []; split <;> rfl
@[simp] theorem armAlert_sapling (b : State) (s : State) : (armAlert b s).sapling = s.sapling := by
    unfold armAlert; simp only []; split <;> rfl
@[simp] theorem armAlert_group (b : State) (s : State) : (armAlert b s).group = s.group := by
    unfold armAlert; simp only []; split <;> rfl
@[simp] theorem armAlert_conv (b : State) (s : State) : (armAlert b s).conv = s.conv := by
    unfold armAlert; simp only []; split <;> rfl
@[simp] theorem armAlert_therm (b : State) (s : State) : (armAlert b s).therm = s.therm := by
    unfold armAlert; simp only []; split <;> rfl
@[simp] theorem armAlert_eng (b : State) (s : State) : (armAlert b s).eng = s.eng := by
    unfold armAlert; simp only []; split <;> rfl
@[simp] theorem armAlert_ring (b : State) (s : State) : (armAlert b s).ring = s.ring := by
    unfold armAlert; simp only []; split <;> rfl
@[simp] theorem armAlert_fc (b : State) (s : State) : (armAlert b s).fc = s.fc := by
    unfold armAlert; simp only []; split <;> rfl
@[simp] theorem armAlert_warden (b : State) (s : State) : (armAlert b s).warden = s.warden := by
    unfold armAlert; simp only []; split <;> rfl
@[simp] theorem armAlert_host_released (b : State) (s : State) : (armAlert b s).host.released = s.host.released := by
    unfold armAlert; simp only []; split <;> rfl
@[simp] theorem armAlert_host_haddr (b : State) (s : State) : (armAlert b s).host.haddr = s.host.haddr := by
    unfold armAlert; simp only []; split <;> rfl
@[simp] theorem armAlert_host_pointer (b : State) (s : State) : (armAlert b s).host.pointer = s.host.pointer := by
    unfold armAlert; simp only []; split <;> rfl
@[simp] theorem armAlert_host_frameErr (b : State) (s : State) : (armAlert b s).host.frameErr = s.host.frameErr := by
    unfold armAlert; simp only []; split <;> rfl
@[simp] theorem armAlert_host_busErr (b : State) (s : State) : (armAlert b s).host.busErr = s.host.busErr := by
    unfold armAlert; simp only []; split <;> rfl
@[simp] theorem armAlert_host_hostErr (b : State) (s : State) : (armAlert b s).host.hostErr = s.host.hostErr := by
    unfold armAlert; simp only []; split <;> rfl
@[simp] theorem armAlert_host_spiErr (b : State) (s : State) : (armAlert b s).host.spiErr = s.host.spiErr := by
    unfold armAlert; simp only []; split <;> rfl
@[simp] theorem armAlert_host_hbusErr (b : State) (s : State) : (armAlert b s).host.hbusErr = s.host.hbusErr := by
    unfold armAlert; simp only []; split <;> rfl
@[simp] theorem armAlert_host_spiProto (b : State) (s : State) : (armAlert b s).host.spiProto = s.host.spiProto := by
    unfold armAlert; simp only []; split <;> rfl
@[simp] theorem armAlert_host_hbusProto (b : State) (s : State) : (armAlert b s).host.hbusProto = s.host.hbusProto := by
    unfold armAlert; simp only []; split <;> rfl
@[simp] theorem armAlert_host_tbHiSpi (b : State) (s : State) : (armAlert b s).host.tbHiSpi = s.host.tbHiSpi := by
    unfold armAlert; simp only []; split <;> rfl
@[simp] theorem armAlert_host_tbHiHbus (b : State) (s : State) : (armAlert b s).host.tbHiHbus = s.host.tbHiHbus := by
    unfold armAlert; simp only []; split <;> rfl
@[simp] theorem armAlert_host_feHiSpi (b : State) (s : State) : (armAlert b s).host.feHiSpi = s.host.feHiSpi := by
    unfold armAlert; simp only []; split <;> rfl
@[simp] theorem armAlert_host_feHiHbus (b : State) (s : State) : (armAlert b s).host.feHiHbus = s.host.feHiHbus := by
    unfold armAlert; simp only []; split <;> rfl
@[simp] theorem armAlert_host_scratch (b : State) (s : State) : (armAlert b s).host.scratch = s.host.scratch := by
    unfold armAlert; simp only []; split <;> rfl
@[simp] theorem armAlert_host_intPend (b : State) (s : State) : (armAlert b s).host.intPend = s.host.intPend := by
    unfold armAlert; simp only []; split <;> rfl
@[simp] theorem armAlert_host_irqEn (b : State) (s : State) : (armAlert b s).host.irqEn = s.host.irqEn := by
    unfold armAlert; simp only []; split <;> rfl
@[simp] theorem armAlert_host_alertEn (b : State) (s : State) : (armAlert b s).host.alertEn = s.host.alertEn := by
    unfold armAlert; simp only []; split <;> rfl
@[simp] theorem armAlert_host_irqDue (b : State) (s : State) : (armAlert b s).host.irqDue = s.host.irqDue := by
    unfold armAlert; simp only []; split <;> rfl
@[simp] theorem armAlert_host_alertDue (b : State) (s : State) : (armAlert b s).host.alertDue = s.host.alertDue := by
    unfold armAlert; simp only []; split <;> rfl
@[simp] theorem armAlert_host_out (b : State) (s : State) : (armAlert b s).host.out = s.host.out := by
    unfold armAlert; simp only []; split <;> rfl
@[simp] theorem armAlert_host_acks (b : State) (s : State) : (armAlert b s).host.acks = s.host.acks := by
    unfold armAlert; simp only []; split <;> rfl
@[simp] theorem armAlert_mbox (b : State) (s : State) : (armAlert b s).mbox = s.mbox := by
    unfold armAlert; simp only []; split <;> rfl
@[simp] theorem armAlert_par (b : State) (s : State) : (armAlert b s).par = s.par := by
    unfold armAlert; simp only []; split <;> rfl
@[simp] theorem armAlert_otp (b : State) (s : State) : (armAlert b s).otp = s.otp := by
    unfold armAlert; simp only []; split <;> rfl
@[simp] theorem armAlert_snap (b : State) (s : State) : (armAlert b s).snap = s.snap := by
    unfold armAlert; simp only []; split <;> rfl
@[simp] theorem armAlert_stby (b : State) (s : State) : (armAlert b s).stby = s.stby := by
    unfold armAlert; simp only []; split <;> rfl
@[simp] theorem armAlert_sbus (b : State) (s : State) : (armAlert b s).sbus = s.sbus := by
    unfold armAlert; simp only []; split <;> rfl

/-! ### setCause -/

@[simp] theorem setCause_pending (bit : Nat) (s : State) : (setCause bit s).pending = s.pending := by simp [setCause]
@[simp] theorem setCause_dev (bit : Nat) (s : State) : (setCause bit s).dev = s.dev := by simp [setCause]
@[simp] theorem setCause_boot (bit : Nat) (s : State) : (setCause bit s).boot = s.boot := by simp [setCause]
@[simp] theorem setCause_aon (bit : Nat) (s : State) : (setCause bit s).aon = s.aon := by simp [setCause]
@[simp] theorem setCause_clk (bit : Nat) (s : State) : (setCause bit s).clk = s.clk := by simp [setCause]
@[simp] theorem setCause_wires (bit : Nat) (s : State) : (setCause bit s).wires = s.wires := by simp [setCause]
@[simp] theorem setCause_tb (bit : Nat) (s : State) : (setCause bit s).tb = s.tb := by simp [setCause]
@[simp] theorem setCause_tbRuns (bit : Nat) (s : State) : (setCause bit s).tbRuns = s.tbRuns := by simp [setCause]
@[simp] theorem setCause_lastFrame (bit : Nat) (s : State) : (setCause bit s).lastFrame = s.lastFrame := by simp [setCause]
@[simp] theorem setCause_free (bit : Nat) (s : State) : (setCause bit s).free = s.free := by simp [setCause]
@[simp] theorem setCause_ride (bit : Nat) (s : State) : (setCause bit s).ride = s.ride := by simp [setCause]
@[simp] theorem setCause_tap (bit : Nat) (s : State) : (setCause bit s).tap = s.tap := by simp [setCause]
@[simp] theorem setCause_chan (bit : Nat) (s : State) : (setCause bit s).chan = s.chan := by simp [setCause]
@[simp] theorem setCause_phase (bit : Nat) (s : State) : (setCause bit s).phase = s.phase := by simp [setCause]
@[simp] theorem setCause_src (bit : Nat) (s : State) : (setCause bit s).src = s.src := by simp [setCause]
@[simp] theorem setCause_bat (bit : Nat) (s : State) : (setCause bit s).bat = s.bat := by simp [setCause]
@[simp] theorem setCause_usb (bit : Nat) (s : State) : (setCause bit s).usb = s.usb := by simp [setCause]
@[simp] theorem setCause_load (bit : Nat) (s : State) : (setCause bit s).load = s.load := by simp [setCause]
@[simp] theorem setCause_vcc (bit : Nat) (s : State) : (setCause bit s).vcc = s.vcc := by simp [setCause]
@[simp] theorem setCause_vdrv (bit : Nat) (s : State) : (setCause bit s).vdrv = s.vdrv := by simp [setCause]
@[simp] theorem setCause_sapling (bit : Nat) (s : State) : (setCause bit s).sapling = s.sapling := by simp [setCause]
@[simp] theorem setCause_group (bit : Nat) (s : State) : (setCause bit s).group = s.group := by simp [setCause]
@[simp] theorem setCause_conv (bit : Nat) (s : State) : (setCause bit s).conv = s.conv := by simp [setCause]
@[simp] theorem setCause_therm (bit : Nat) (s : State) : (setCause bit s).therm = s.therm := by simp [setCause]
@[simp] theorem setCause_eng (bit : Nat) (s : State) : (setCause bit s).eng = s.eng := by simp [setCause]
@[simp] theorem setCause_ring (bit : Nat) (s : State) : (setCause bit s).ring = s.ring := by simp [setCause]
@[simp] theorem setCause_fc (bit : Nat) (s : State) : (setCause bit s).fc = s.fc := by simp [setCause]
@[simp] theorem setCause_warden (bit : Nat) (s : State) : (setCause bit s).warden = s.warden := by simp [setCause]
@[simp] theorem setCause_host_released (bit : Nat) (s : State) : (setCause bit s).host.released = s.host.released := by simp [setCause]
@[simp] theorem setCause_host_haddr (bit : Nat) (s : State) : (setCause bit s).host.haddr = s.host.haddr := by simp [setCause]
@[simp] theorem setCause_host_pointer (bit : Nat) (s : State) : (setCause bit s).host.pointer = s.host.pointer := by simp [setCause]
@[simp] theorem setCause_host_frameErr (bit : Nat) (s : State) : (setCause bit s).host.frameErr = s.host.frameErr := by simp [setCause]
@[simp] theorem setCause_host_busErr (bit : Nat) (s : State) : (setCause bit s).host.busErr = s.host.busErr := by simp [setCause]
@[simp] theorem setCause_host_hostErr (bit : Nat) (s : State) : (setCause bit s).host.hostErr = s.host.hostErr := by simp [setCause]
@[simp] theorem setCause_host_spiErr (bit : Nat) (s : State) : (setCause bit s).host.spiErr = s.host.spiErr := by simp [setCause]
@[simp] theorem setCause_host_hbusErr (bit : Nat) (s : State) : (setCause bit s).host.hbusErr = s.host.hbusErr := by simp [setCause]
@[simp] theorem setCause_host_spiProto (bit : Nat) (s : State) : (setCause bit s).host.spiProto = s.host.spiProto := by simp [setCause]
@[simp] theorem setCause_host_hbusProto (bit : Nat) (s : State) : (setCause bit s).host.hbusProto = s.host.hbusProto := by simp [setCause]
@[simp] theorem setCause_host_tbHiSpi (bit : Nat) (s : State) : (setCause bit s).host.tbHiSpi = s.host.tbHiSpi := by simp [setCause]
@[simp] theorem setCause_host_tbHiHbus (bit : Nat) (s : State) : (setCause bit s).host.tbHiHbus = s.host.tbHiHbus := by simp [setCause]
@[simp] theorem setCause_host_feHiSpi (bit : Nat) (s : State) : (setCause bit s).host.feHiSpi = s.host.feHiSpi := by simp [setCause]
@[simp] theorem setCause_host_feHiHbus (bit : Nat) (s : State) : (setCause bit s).host.feHiHbus = s.host.feHiHbus := by simp [setCause]
@[simp] theorem setCause_host_scratch (bit : Nat) (s : State) : (setCause bit s).host.scratch = s.host.scratch := by simp [setCause]
@[simp] theorem setCause_host_irqEn (bit : Nat) (s : State) : (setCause bit s).host.irqEn = s.host.irqEn := by simp [setCause]
@[simp] theorem setCause_host_alertEn (bit : Nat) (s : State) : (setCause bit s).host.alertEn = s.host.alertEn := by simp [setCause]
@[simp] theorem setCause_host_irqDue (bit : Nat) (s : State) : (setCause bit s).host.irqDue = s.host.irqDue := by simp [setCause]
@[simp] theorem setCause_host_alertDue (bit : Nat) (s : State) : (setCause bit s).host.alertDue = s.host.alertDue := by simp [setCause]
@[simp] theorem setCause_host_out (bit : Nat) (s : State) : (setCause bit s).host.out = s.host.out := by simp [setCause]
@[simp] theorem setCause_host_acks (bit : Nat) (s : State) : (setCause bit s).host.acks = s.host.acks := by simp [setCause]
@[simp] theorem setCause_mbox (bit : Nat) (s : State) : (setCause bit s).mbox = s.mbox := by simp [setCause]
@[simp] theorem setCause_par (bit : Nat) (s : State) : (setCause bit s).par = s.par := by simp [setCause]
@[simp] theorem setCause_otp (bit : Nat) (s : State) : (setCause bit s).otp = s.otp := by simp [setCause]
@[simp] theorem setCause_snap (bit : Nat) (s : State) : (setCause bit s).snap = s.snap := by simp [setCause]
@[simp] theorem setCause_stby (bit : Nat) (s : State) : (setCause bit s).stby = s.stby := by simp [setCause]
@[simp] theorem setCause_sbus (bit : Nat) (s : State) : (setCause bit s).sbus = s.sbus := by simp [setCause]

/-! ### ringErr -/

@[simp] theorem ringErr_pending (q : Fin 16) (s : State) : (ringErr q s).pending = s.pending := by unfold ringErr; split <;> simp
@[simp] theorem ringErr_dev (q : Fin 16) (s : State) : (ringErr q s).dev = s.dev := by unfold ringErr; split <;> simp
@[simp] theorem ringErr_boot (q : Fin 16) (s : State) : (ringErr q s).boot = s.boot := by unfold ringErr; split <;> simp
@[simp] theorem ringErr_aon (q : Fin 16) (s : State) : (ringErr q s).aon = s.aon := by unfold ringErr; split <;> simp
@[simp] theorem ringErr_clk (q : Fin 16) (s : State) : (ringErr q s).clk = s.clk := by unfold ringErr; split <;> simp
@[simp] theorem ringErr_wires (q : Fin 16) (s : State) : (ringErr q s).wires = s.wires := by unfold ringErr; split <;> simp
@[simp] theorem ringErr_tb (q : Fin 16) (s : State) : (ringErr q s).tb = s.tb := by unfold ringErr; split <;> simp
@[simp] theorem ringErr_tbRuns (q : Fin 16) (s : State) : (ringErr q s).tbRuns = s.tbRuns := by unfold ringErr; split <;> simp
@[simp] theorem ringErr_lastFrame (q : Fin 16) (s : State) : (ringErr q s).lastFrame = s.lastFrame := by unfold ringErr; split <;> simp
@[simp] theorem ringErr_free (q : Fin 16) (s : State) : (ringErr q s).free = s.free := by unfold ringErr; split <;> simp
@[simp] theorem ringErr_ride (q : Fin 16) (s : State) : (ringErr q s).ride = s.ride := by unfold ringErr; split <;> simp
@[simp] theorem ringErr_tap (q : Fin 16) (s : State) : (ringErr q s).tap = s.tap := by unfold ringErr; split <;> simp
@[simp] theorem ringErr_chan (q : Fin 16) (s : State) : (ringErr q s).chan = s.chan := by unfold ringErr; split <;> simp
@[simp] theorem ringErr_phase (q : Fin 16) (s : State) : (ringErr q s).phase = s.phase := by unfold ringErr; split <;> simp
@[simp] theorem ringErr_src (q : Fin 16) (s : State) : (ringErr q s).src = s.src := by unfold ringErr; split <;> simp
@[simp] theorem ringErr_bat (q : Fin 16) (s : State) : (ringErr q s).bat = s.bat := by unfold ringErr; split <;> simp
@[simp] theorem ringErr_usb (q : Fin 16) (s : State) : (ringErr q s).usb = s.usb := by unfold ringErr; split <;> simp
@[simp] theorem ringErr_load (q : Fin 16) (s : State) : (ringErr q s).load = s.load := by unfold ringErr; split <;> simp
@[simp] theorem ringErr_vcc (q : Fin 16) (s : State) : (ringErr q s).vcc = s.vcc := by unfold ringErr; split <;> simp
@[simp] theorem ringErr_vdrv (q : Fin 16) (s : State) : (ringErr q s).vdrv = s.vdrv := by unfold ringErr; split <;> simp
@[simp] theorem ringErr_sapling (q : Fin 16) (s : State) : (ringErr q s).sapling = s.sapling := by unfold ringErr; split <;> simp
@[simp] theorem ringErr_group (q : Fin 16) (s : State) : (ringErr q s).group = s.group := by unfold ringErr; split <;> simp
@[simp] theorem ringErr_conv (q : Fin 16) (s : State) : (ringErr q s).conv = s.conv := by unfold ringErr; split <;> simp
@[simp] theorem ringErr_therm (q : Fin 16) (s : State) : (ringErr q s).therm = s.therm := by unfold ringErr; split <;> simp
@[simp] theorem ringErr_eng (q : Fin 16) (s : State) : (ringErr q s).eng = s.eng := by unfold ringErr; split <;> simp
@[simp] theorem ringErr_ring (q : Fin 16) (s : State) : (ringErr q s).ring = s.ring := by unfold ringErr; split <;> simp
@[simp] theorem ringErr_fc (q : Fin 16) (s : State) : (ringErr q s).fc = s.fc := by unfold ringErr; split <;> simp
@[simp] theorem ringErr_warden (q : Fin 16) (s : State) : (ringErr q s).warden = s.warden := by unfold ringErr; split <;> simp
@[simp] theorem ringErr_host_released (q : Fin 16) (s : State) : (ringErr q s).host.released = s.host.released := by unfold ringErr; split <;> simp
@[simp] theorem ringErr_host_haddr (q : Fin 16) (s : State) : (ringErr q s).host.haddr = s.host.haddr := by unfold ringErr; split <;> simp
@[simp] theorem ringErr_host_pointer (q : Fin 16) (s : State) : (ringErr q s).host.pointer = s.host.pointer := by unfold ringErr; split <;> simp
@[simp] theorem ringErr_host_frameErr (q : Fin 16) (s : State) : (ringErr q s).host.frameErr = s.host.frameErr := by unfold ringErr; split <;> simp
@[simp] theorem ringErr_host_busErr (q : Fin 16) (s : State) : (ringErr q s).host.busErr = s.host.busErr := by unfold ringErr; split <;> simp
@[simp] theorem ringErr_host_hostErr (q : Fin 16) (s : State) : (ringErr q s).host.hostErr = s.host.hostErr := by unfold ringErr; split <;> simp
@[simp] theorem ringErr_host_spiErr (q : Fin 16) (s : State) : (ringErr q s).host.spiErr = s.host.spiErr := by unfold ringErr; split <;> simp
@[simp] theorem ringErr_host_hbusErr (q : Fin 16) (s : State) : (ringErr q s).host.hbusErr = s.host.hbusErr := by unfold ringErr; split <;> simp
@[simp] theorem ringErr_host_spiProto (q : Fin 16) (s : State) : (ringErr q s).host.spiProto = s.host.spiProto := by unfold ringErr; split <;> simp
@[simp] theorem ringErr_host_hbusProto (q : Fin 16) (s : State) : (ringErr q s).host.hbusProto = s.host.hbusProto := by unfold ringErr; split <;> simp
@[simp] theorem ringErr_host_tbHiSpi (q : Fin 16) (s : State) : (ringErr q s).host.tbHiSpi = s.host.tbHiSpi := by unfold ringErr; split <;> simp
@[simp] theorem ringErr_host_tbHiHbus (q : Fin 16) (s : State) : (ringErr q s).host.tbHiHbus = s.host.tbHiHbus := by unfold ringErr; split <;> simp
@[simp] theorem ringErr_host_feHiSpi (q : Fin 16) (s : State) : (ringErr q s).host.feHiSpi = s.host.feHiSpi := by unfold ringErr; split <;> simp
@[simp] theorem ringErr_host_feHiHbus (q : Fin 16) (s : State) : (ringErr q s).host.feHiHbus = s.host.feHiHbus := by unfold ringErr; split <;> simp
@[simp] theorem ringErr_host_scratch (q : Fin 16) (s : State) : (ringErr q s).host.scratch = s.host.scratch := by unfold ringErr; split <;> simp
@[simp] theorem ringErr_host_irqEn (q : Fin 16) (s : State) : (ringErr q s).host.irqEn = s.host.irqEn := by unfold ringErr; split <;> simp
@[simp] theorem ringErr_host_alertEn (q : Fin 16) (s : State) : (ringErr q s).host.alertEn = s.host.alertEn := by unfold ringErr; split <;> simp
@[simp] theorem ringErr_host_irqDue (q : Fin 16) (s : State) : (ringErr q s).host.irqDue = s.host.irqDue := by unfold ringErr; split <;> simp
@[simp] theorem ringErr_host_alertDue (q : Fin 16) (s : State) : (ringErr q s).host.alertDue = s.host.alertDue := by unfold ringErr; split <;> simp
@[simp] theorem ringErr_host_out (q : Fin 16) (s : State) : (ringErr q s).host.out = s.host.out := by unfold ringErr; split <;> simp
@[simp] theorem ringErr_host_acks (q : Fin 16) (s : State) : (ringErr q s).host.acks = s.host.acks := by unfold ringErr; split <;> simp
@[simp] theorem ringErr_mbox (q : Fin 16) (s : State) : (ringErr q s).mbox = s.mbox := by unfold ringErr; split <;> simp
@[simp] theorem ringErr_par (q : Fin 16) (s : State) : (ringErr q s).par = s.par := by unfold ringErr; split <;> simp
@[simp] theorem ringErr_otp (q : Fin 16) (s : State) : (ringErr q s).otp = s.otp := by unfold ringErr; split <;> simp
@[simp] theorem ringErr_snap (q : Fin 16) (s : State) : (ringErr q s).snap = s.snap := by unfold ringErr; split <;> simp
@[simp] theorem ringErr_stby (q : Fin 16) (s : State) : (ringErr q s).stby = s.stby := by unfold ringErr; split <;> simp
@[simp] theorem ringErr_sbus (q : Fin 16) (s : State) : (ringErr q s).sbus = s.sbus := by unfold ringErr; split <;> simp

/-! ### dropRecord -/

@[simp] theorem dropRecord_pending (q : Fin 16) (s : State) : (dropRecord q s).pending = s.pending := by
    unfold dropRecord; simp only []; split <;> simp
@[simp] theorem dropRecord_dev (q : Fin 16) (s : State) : (dropRecord q s).dev = s.dev := by
    unfold dropRecord; simp only []; split <;> simp
@[simp] theorem dropRecord_boot (q : Fin 16) (s : State) : (dropRecord q s).boot = s.boot := by
    unfold dropRecord; simp only []; split <;> simp
@[simp] theorem dropRecord_aon (q : Fin 16) (s : State) : (dropRecord q s).aon = s.aon := by
    unfold dropRecord; simp only []; split <;> simp
@[simp] theorem dropRecord_clk (q : Fin 16) (s : State) : (dropRecord q s).clk = s.clk := by
    unfold dropRecord; simp only []; split <;> simp
@[simp] theorem dropRecord_wires (q : Fin 16) (s : State) : (dropRecord q s).wires = s.wires := by
    unfold dropRecord; simp only []; split <;> simp
@[simp] theorem dropRecord_tb (q : Fin 16) (s : State) : (dropRecord q s).tb = s.tb := by
    unfold dropRecord; simp only []; split <;> simp
@[simp] theorem dropRecord_tbRuns (q : Fin 16) (s : State) : (dropRecord q s).tbRuns = s.tbRuns := by
    unfold dropRecord; simp only []; split <;> simp
@[simp] theorem dropRecord_lastFrame (q : Fin 16) (s : State) : (dropRecord q s).lastFrame = s.lastFrame := by
    unfold dropRecord; simp only []; split <;> simp
@[simp] theorem dropRecord_free (q : Fin 16) (s : State) : (dropRecord q s).free = s.free := by
    unfold dropRecord; simp only []; split <;> simp
@[simp] theorem dropRecord_ride (q : Fin 16) (s : State) : (dropRecord q s).ride = s.ride := by
    unfold dropRecord; simp only []; split <;> simp
@[simp] theorem dropRecord_tap (q : Fin 16) (s : State) : (dropRecord q s).tap = s.tap := by
    unfold dropRecord; simp only []; split <;> simp
@[simp] theorem dropRecord_chan (q : Fin 16) (s : State) : (dropRecord q s).chan = s.chan := by
    unfold dropRecord; simp only []; split <;> simp
@[simp] theorem dropRecord_phase (q : Fin 16) (s : State) : (dropRecord q s).phase = s.phase := by
    unfold dropRecord; simp only []; split <;> simp
@[simp] theorem dropRecord_src (q : Fin 16) (s : State) : (dropRecord q s).src = s.src := by
    unfold dropRecord; simp only []; split <;> simp
@[simp] theorem dropRecord_bat (q : Fin 16) (s : State) : (dropRecord q s).bat = s.bat := by
    unfold dropRecord; simp only []; split <;> simp
@[simp] theorem dropRecord_usb (q : Fin 16) (s : State) : (dropRecord q s).usb = s.usb := by
    unfold dropRecord; simp only []; split <;> simp
@[simp] theorem dropRecord_load (q : Fin 16) (s : State) : (dropRecord q s).load = s.load := by
    unfold dropRecord; simp only []; split <;> simp
@[simp] theorem dropRecord_vcc (q : Fin 16) (s : State) : (dropRecord q s).vcc = s.vcc := by
    unfold dropRecord; simp only []; split <;> simp
@[simp] theorem dropRecord_vdrv (q : Fin 16) (s : State) : (dropRecord q s).vdrv = s.vdrv := by
    unfold dropRecord; simp only []; split <;> simp
@[simp] theorem dropRecord_sapling (q : Fin 16) (s : State) : (dropRecord q s).sapling = s.sapling := by
    unfold dropRecord; simp only []; split <;> simp
@[simp] theorem dropRecord_group (q : Fin 16) (s : State) : (dropRecord q s).group = s.group := by
    unfold dropRecord; simp only []; split <;> simp
@[simp] theorem dropRecord_conv (q : Fin 16) (s : State) : (dropRecord q s).conv = s.conv := by
    unfold dropRecord; simp only []; split <;> simp
@[simp] theorem dropRecord_therm (q : Fin 16) (s : State) : (dropRecord q s).therm = s.therm := by
    unfold dropRecord; simp only []; split <;> simp
@[simp] theorem dropRecord_eng (q : Fin 16) (s : State) : (dropRecord q s).eng = s.eng := by
    unfold dropRecord; simp only []; split <;> simp
@[simp] theorem dropRecord_fc (q : Fin 16) (s : State) : (dropRecord q s).fc = s.fc := by
    unfold dropRecord; simp only []; split <;> simp
@[simp] theorem dropRecord_warden (q : Fin 16) (s : State) : (dropRecord q s).warden = s.warden := by
    unfold dropRecord; simp only []; split <;> simp
@[simp] theorem dropRecord_host_released (q : Fin 16) (s : State) : (dropRecord q s).host.released = s.host.released := by
    unfold dropRecord; simp only []; split <;> simp
@[simp] theorem dropRecord_host_haddr (q : Fin 16) (s : State) : (dropRecord q s).host.haddr = s.host.haddr := by
    unfold dropRecord; simp only []; split <;> simp
@[simp] theorem dropRecord_host_pointer (q : Fin 16) (s : State) : (dropRecord q s).host.pointer = s.host.pointer := by
    unfold dropRecord; simp only []; split <;> simp
@[simp] theorem dropRecord_host_frameErr (q : Fin 16) (s : State) : (dropRecord q s).host.frameErr = s.host.frameErr := by
    unfold dropRecord; simp only []; split <;> simp
@[simp] theorem dropRecord_host_busErr (q : Fin 16) (s : State) : (dropRecord q s).host.busErr = s.host.busErr := by
    unfold dropRecord; simp only []; split <;> simp
@[simp] theorem dropRecord_host_hostErr (q : Fin 16) (s : State) : (dropRecord q s).host.hostErr = s.host.hostErr := by
    unfold dropRecord; simp only []; split <;> simp
@[simp] theorem dropRecord_host_spiErr (q : Fin 16) (s : State) : (dropRecord q s).host.spiErr = s.host.spiErr := by
    unfold dropRecord; simp only []; split <;> simp
@[simp] theorem dropRecord_host_hbusErr (q : Fin 16) (s : State) : (dropRecord q s).host.hbusErr = s.host.hbusErr := by
    unfold dropRecord; simp only []; split <;> simp
@[simp] theorem dropRecord_host_spiProto (q : Fin 16) (s : State) : (dropRecord q s).host.spiProto = s.host.spiProto := by
    unfold dropRecord; simp only []; split <;> simp
@[simp] theorem dropRecord_host_hbusProto (q : Fin 16) (s : State) : (dropRecord q s).host.hbusProto = s.host.hbusProto := by
    unfold dropRecord; simp only []; split <;> simp
@[simp] theorem dropRecord_host_tbHiSpi (q : Fin 16) (s : State) : (dropRecord q s).host.tbHiSpi = s.host.tbHiSpi := by
    unfold dropRecord; simp only []; split <;> simp
@[simp] theorem dropRecord_host_tbHiHbus (q : Fin 16) (s : State) : (dropRecord q s).host.tbHiHbus = s.host.tbHiHbus := by
    unfold dropRecord; simp only []; split <;> simp
@[simp] theorem dropRecord_host_feHiSpi (q : Fin 16) (s : State) : (dropRecord q s).host.feHiSpi = s.host.feHiSpi := by
    unfold dropRecord; simp only []; split <;> simp
@[simp] theorem dropRecord_host_feHiHbus (q : Fin 16) (s : State) : (dropRecord q s).host.feHiHbus = s.host.feHiHbus := by
    unfold dropRecord; simp only []; split <;> simp
@[simp] theorem dropRecord_host_scratch (q : Fin 16) (s : State) : (dropRecord q s).host.scratch = s.host.scratch := by
    unfold dropRecord; simp only []; split <;> simp
@[simp] theorem dropRecord_host_irqEn (q : Fin 16) (s : State) : (dropRecord q s).host.irqEn = s.host.irqEn := by
    unfold dropRecord; simp only []; split <;> simp
@[simp] theorem dropRecord_host_alertEn (q : Fin 16) (s : State) : (dropRecord q s).host.alertEn = s.host.alertEn := by
    unfold dropRecord; simp only []; split <;> simp
@[simp] theorem dropRecord_host_irqDue (q : Fin 16) (s : State) : (dropRecord q s).host.irqDue = s.host.irqDue := by
    unfold dropRecord; simp only []; split <;> simp
@[simp] theorem dropRecord_host_alertDue (q : Fin 16) (s : State) : (dropRecord q s).host.alertDue = s.host.alertDue := by
    unfold dropRecord; simp only []; split <;> simp
@[simp] theorem dropRecord_host_out (q : Fin 16) (s : State) : (dropRecord q s).host.out = s.host.out := by
    unfold dropRecord; simp only []; split <;> simp
@[simp] theorem dropRecord_host_acks (q : Fin 16) (s : State) : (dropRecord q s).host.acks = s.host.acks := by
    unfold dropRecord; simp only []; split <;> simp
@[simp] theorem dropRecord_mbox (q : Fin 16) (s : State) : (dropRecord q s).mbox = s.mbox := by
    unfold dropRecord; simp only []; split <;> simp
@[simp] theorem dropRecord_par (q : Fin 16) (s : State) : (dropRecord q s).par = s.par := by
    unfold dropRecord; simp only []; split <;> simp
@[simp] theorem dropRecord_otp (q : Fin 16) (s : State) : (dropRecord q s).otp = s.otp := by
    unfold dropRecord; simp only []; split <;> simp
@[simp] theorem dropRecord_snap (q : Fin 16) (s : State) : (dropRecord q s).snap = s.snap := by
    unfold dropRecord; simp only []; split <;> simp
@[simp] theorem dropRecord_stby (q : Fin 16) (s : State) : (dropRecord q s).stby = s.stby := by
    unfold dropRecord; simp only []; split <;> simp
@[simp] theorem dropRecord_sbus (q : Fin 16) (s : State) : (dropRecord q s).sbus = s.sbus := by
    unfold dropRecord; simp only []; split <;> simp

/-! ### dropReport -/

@[simp] theorem dropReport_pending (r : Report) (s : State) : (dropReport r s).pending = s.pending := by simp [dropReport]
@[simp] theorem dropReport_dev (r : Report) (s : State) : (dropReport r s).dev = s.dev := by simp [dropReport]
@[simp] theorem dropReport_boot (r : Report) (s : State) : (dropReport r s).boot = s.boot := by simp [dropReport]
@[simp] theorem dropReport_aon (r : Report) (s : State) : (dropReport r s).aon = s.aon := by simp [dropReport]
@[simp] theorem dropReport_clk (r : Report) (s : State) : (dropReport r s).clk = s.clk := by simp [dropReport]
@[simp] theorem dropReport_wires (r : Report) (s : State) : (dropReport r s).wires = s.wires := by simp [dropReport]
@[simp] theorem dropReport_tb (r : Report) (s : State) : (dropReport r s).tb = s.tb := by simp [dropReport]
@[simp] theorem dropReport_tbRuns (r : Report) (s : State) : (dropReport r s).tbRuns = s.tbRuns := by simp [dropReport]
@[simp] theorem dropReport_lastFrame (r : Report) (s : State) : (dropReport r s).lastFrame = s.lastFrame := by simp [dropReport]
@[simp] theorem dropReport_free (r : Report) (s : State) : (dropReport r s).free = s.free := by simp [dropReport]
@[simp] theorem dropReport_ride (r : Report) (s : State) : (dropReport r s).ride = s.ride := by simp [dropReport]
@[simp] theorem dropReport_tap (r : Report) (s : State) : (dropReport r s).tap = s.tap := by simp [dropReport]
@[simp] theorem dropReport_chan (r : Report) (s : State) : (dropReport r s).chan = s.chan := by simp [dropReport]
@[simp] theorem dropReport_phase (r : Report) (s : State) : (dropReport r s).phase = s.phase := by simp [dropReport]
@[simp] theorem dropReport_src (r : Report) (s : State) : (dropReport r s).src = s.src := by simp [dropReport]
@[simp] theorem dropReport_bat (r : Report) (s : State) : (dropReport r s).bat = s.bat := by simp [dropReport]
@[simp] theorem dropReport_usb (r : Report) (s : State) : (dropReport r s).usb = s.usb := by simp [dropReport]
@[simp] theorem dropReport_load (r : Report) (s : State) : (dropReport r s).load = s.load := by simp [dropReport]
@[simp] theorem dropReport_vcc (r : Report) (s : State) : (dropReport r s).vcc = s.vcc := by simp [dropReport]
@[simp] theorem dropReport_vdrv (r : Report) (s : State) : (dropReport r s).vdrv = s.vdrv := by simp [dropReport]
@[simp] theorem dropReport_sapling (r : Report) (s : State) : (dropReport r s).sapling = s.sapling := by simp [dropReport]
@[simp] theorem dropReport_group (r : Report) (s : State) : (dropReport r s).group = s.group := by simp [dropReport]
@[simp] theorem dropReport_conv (r : Report) (s : State) : (dropReport r s).conv = s.conv := by simp [dropReport]
@[simp] theorem dropReport_therm (r : Report) (s : State) : (dropReport r s).therm = s.therm := by simp [dropReport]
@[simp] theorem dropReport_eng (r : Report) (s : State) : (dropReport r s).eng = s.eng := by simp [dropReport]
@[simp] theorem dropReport_fc_feAddr (r : Report) (s : State) : (dropReport r s).fc.feAddr = s.fc.feAddr := by simp [dropReport]
@[simp] theorem dropReport_fc_feMaster (r : Report) (s : State) : (dropReport r s).fc.feMaster = s.fc.feMaster := by simp [dropReport]
@[simp] theorem dropReport_fc_feType (r : Report) (s : State) : (dropReport r s).fc.feType = s.fc.feType := by simp [dropReport]
@[simp] theorem dropReport_fc_feChecker (r : Report) (s : State) : (dropReport r s).fc.feChecker = s.fc.feChecker := by simp [dropReport]
@[simp] theorem dropReport_fc_feTb (r : Report) (s : State) : (dropReport r s).fc.feTb = s.fc.feTb := by simp [dropReport]
@[simp] theorem dropReport_fc_feValid (r : Report) (s : State) : (dropReport r s).fc.feValid = s.fc.feValid := by simp [dropReport]
@[simp] theorem dropReport_fc_capture (r : Report) (s : State) : (dropReport r s).fc.capture = s.fc.capture := by simp [dropReport]
@[simp] theorem dropReport_fc_q8Seen (r : Report) (s : State) : (dropReport r s).fc.q8Seen = s.fc.q8Seen := by simp [dropReport]
@[simp] theorem dropReport_fc_inject (r : Report) (s : State) : (dropReport r s).fc.inject = s.fc.inject := by simp [dropReport]
@[simp] theorem dropReport_warden (r : Report) (s : State) : (dropReport r s).warden = s.warden := by simp [dropReport]
@[simp] theorem dropReport_host (r : Report) (s : State) : (dropReport r s).host = s.host := by simp [dropReport]
@[simp] theorem dropReport_mbox (r : Report) (s : State) : (dropReport r s).mbox = s.mbox := by simp [dropReport]
@[simp] theorem dropReport_par (r : Report) (s : State) : (dropReport r s).par = s.par := by simp [dropReport]
@[simp] theorem dropReport_otp (r : Report) (s : State) : (dropReport r s).otp = s.otp := by simp [dropReport]
@[simp] theorem dropReport_snap (r : Report) (s : State) : (dropReport r s).snap = s.snap := by simp [dropReport]
@[simp] theorem dropReport_stby (r : Report) (s : State) : (dropReport r s).stby = s.stby := by simp [dropReport]
@[simp] theorem dropReport_sbus (r : Report) (s : State) : (dropReport r s).sbus = s.sbus := by simp [dropReport]

/-! ### report -/

@[simp] theorem report_pending (r : Report) (s : State) : (report r s).pending = s.pending := by
    unfold report; repeat' split
    all_goals simp
@[simp] theorem report_dev (r : Report) (s : State) : (report r s).dev = s.dev := by
    unfold report; repeat' split
    all_goals simp
@[simp] theorem report_boot (r : Report) (s : State) : (report r s).boot = s.boot := by
    unfold report; repeat' split
    all_goals simp
@[simp] theorem report_aon (r : Report) (s : State) : (report r s).aon = s.aon := by
    unfold report; repeat' split
    all_goals simp
@[simp] theorem report_clk (r : Report) (s : State) : (report r s).clk = s.clk := by
    unfold report; repeat' split
    all_goals simp
@[simp] theorem report_wires (r : Report) (s : State) : (report r s).wires = s.wires := by
    unfold report; repeat' split
    all_goals simp
@[simp] theorem report_tb (r : Report) (s : State) : (report r s).tb = s.tb := by
    unfold report; repeat' split
    all_goals simp
@[simp] theorem report_tbRuns (r : Report) (s : State) : (report r s).tbRuns = s.tbRuns := by
    unfold report; repeat' split
    all_goals simp
@[simp] theorem report_lastFrame (r : Report) (s : State) : (report r s).lastFrame = s.lastFrame := by
    unfold report; repeat' split
    all_goals simp
@[simp] theorem report_free (r : Report) (s : State) : (report r s).free = s.free := by
    unfold report; repeat' split
    all_goals simp
@[simp] theorem report_ride (r : Report) (s : State) : (report r s).ride = s.ride := by
    unfold report; repeat' split
    all_goals simp
@[simp] theorem report_tap (r : Report) (s : State) : (report r s).tap = s.tap := by
    unfold report; repeat' split
    all_goals simp
@[simp] theorem report_chan (r : Report) (s : State) : (report r s).chan = s.chan := by
    unfold report; repeat' split
    all_goals simp
@[simp] theorem report_phase (r : Report) (s : State) : (report r s).phase = s.phase := by
    unfold report; repeat' split
    all_goals simp
@[simp] theorem report_src (r : Report) (s : State) : (report r s).src = s.src := by
    unfold report; repeat' split
    all_goals simp
@[simp] theorem report_bat (r : Report) (s : State) : (report r s).bat = s.bat := by
    unfold report; repeat' split
    all_goals simp
@[simp] theorem report_usb (r : Report) (s : State) : (report r s).usb = s.usb := by
    unfold report; repeat' split
    all_goals simp
@[simp] theorem report_load (r : Report) (s : State) : (report r s).load = s.load := by
    unfold report; repeat' split
    all_goals simp
@[simp] theorem report_vcc (r : Report) (s : State) : (report r s).vcc = s.vcc := by
    unfold report; repeat' split
    all_goals simp
@[simp] theorem report_vdrv (r : Report) (s : State) : (report r s).vdrv = s.vdrv := by
    unfold report; repeat' split
    all_goals simp
@[simp] theorem report_sapling (r : Report) (s : State) : (report r s).sapling = s.sapling := by
    unfold report; repeat' split
    all_goals simp
@[simp] theorem report_group (r : Report) (s : State) : (report r s).group = s.group := by
    unfold report; repeat' split
    all_goals simp
@[simp] theorem report_conv (r : Report) (s : State) : (report r s).conv = s.conv := by
    unfold report; repeat' split
    all_goals simp
@[simp] theorem report_therm (r : Report) (s : State) : (report r s).therm = s.therm := by
    unfold report; repeat' split
    all_goals simp
@[simp] theorem report_eng (r : Report) (s : State) : (report r s).eng = s.eng := by
    unfold report; repeat' split
    all_goals simp
@[simp] theorem report_fc_q8Seen (r : Report) (s : State) : (report r s).fc.q8Seen = s.fc.q8Seen := by
    unfold report; repeat' split
    all_goals simp
@[simp] theorem report_fc_inject (r : Report) (s : State) : (report r s).fc.inject = s.fc.inject := by
    unfold report; repeat' split
    all_goals simp
@[simp] theorem report_warden (r : Report) (s : State) : (report r s).warden = s.warden := by
    unfold report; repeat' split
    all_goals simp
@[simp] theorem report_host (r : Report) (s : State) : (report r s).host = s.host := by
    unfold report; repeat' split
    all_goals simp
@[simp] theorem report_mbox (r : Report) (s : State) : (report r s).mbox = s.mbox := by
    unfold report; repeat' split
    all_goals simp
@[simp] theorem report_par (r : Report) (s : State) : (report r s).par = s.par := by
    unfold report; repeat' split
    all_goals simp
@[simp] theorem report_otp (r : Report) (s : State) : (report r s).otp = s.otp := by
    unfold report; repeat' split
    all_goals simp
@[simp] theorem report_snap (r : Report) (s : State) : (report r s).snap = s.snap := by
    unfold report; repeat' split
    all_goals simp
@[simp] theorem report_stby (r : Report) (s : State) : (report r s).stby = s.stby := by
    unfold report; repeat' split
    all_goals simp
@[simp] theorem report_sbus (r : Report) (s : State) : (report r s).sbus = s.sbus := by
    unfold report; repeat' split
    all_goals simp

/-! ### reportUnit -/

@[simp] theorem reportUnit_pending (k : Byte) (u i c : Nat) (v : Int) (s : State) : (reportUnit k u i c v s).pending = s.pending := by simp [reportUnit]
@[simp] theorem reportUnit_dev (k : Byte) (u i c : Nat) (v : Int) (s : State) : (reportUnit k u i c v s).dev = s.dev := by simp [reportUnit]
@[simp] theorem reportUnit_boot (k : Byte) (u i c : Nat) (v : Int) (s : State) : (reportUnit k u i c v s).boot = s.boot := by simp [reportUnit]
@[simp] theorem reportUnit_aon (k : Byte) (u i c : Nat) (v : Int) (s : State) : (reportUnit k u i c v s).aon = s.aon := by simp [reportUnit]
@[simp] theorem reportUnit_clk (k : Byte) (u i c : Nat) (v : Int) (s : State) : (reportUnit k u i c v s).clk = s.clk := by simp [reportUnit]
@[simp] theorem reportUnit_wires (k : Byte) (u i c : Nat) (v : Int) (s : State) : (reportUnit k u i c v s).wires = s.wires := by simp [reportUnit]
@[simp] theorem reportUnit_tb (k : Byte) (u i c : Nat) (v : Int) (s : State) : (reportUnit k u i c v s).tb = s.tb := by simp [reportUnit]
@[simp] theorem reportUnit_tbRuns (k : Byte) (u i c : Nat) (v : Int) (s : State) : (reportUnit k u i c v s).tbRuns = s.tbRuns := by simp [reportUnit]
@[simp] theorem reportUnit_lastFrame (k : Byte) (u i c : Nat) (v : Int) (s : State) : (reportUnit k u i c v s).lastFrame = s.lastFrame := by simp [reportUnit]
@[simp] theorem reportUnit_free (k : Byte) (u i c : Nat) (v : Int) (s : State) : (reportUnit k u i c v s).free = s.free := by simp [reportUnit]
@[simp] theorem reportUnit_ride (k : Byte) (u i c : Nat) (v : Int) (s : State) : (reportUnit k u i c v s).ride = s.ride := by simp [reportUnit]
@[simp] theorem reportUnit_tap (k : Byte) (u i c : Nat) (v : Int) (s : State) : (reportUnit k u i c v s).tap = s.tap := by simp [reportUnit]
@[simp] theorem reportUnit_chan (k : Byte) (u i c : Nat) (v : Int) (s : State) : (reportUnit k u i c v s).chan = s.chan := by simp [reportUnit]
@[simp] theorem reportUnit_phase (k : Byte) (u i c : Nat) (v : Int) (s : State) : (reportUnit k u i c v s).phase = s.phase := by simp [reportUnit]
@[simp] theorem reportUnit_src (k : Byte) (u i c : Nat) (v : Int) (s : State) : (reportUnit k u i c v s).src = s.src := by simp [reportUnit]
@[simp] theorem reportUnit_bat (k : Byte) (u i c : Nat) (v : Int) (s : State) : (reportUnit k u i c v s).bat = s.bat := by simp [reportUnit]
@[simp] theorem reportUnit_usb (k : Byte) (u i c : Nat) (v : Int) (s : State) : (reportUnit k u i c v s).usb = s.usb := by simp [reportUnit]
@[simp] theorem reportUnit_load (k : Byte) (u i c : Nat) (v : Int) (s : State) : (reportUnit k u i c v s).load = s.load := by simp [reportUnit]
@[simp] theorem reportUnit_vcc (k : Byte) (u i c : Nat) (v : Int) (s : State) : (reportUnit k u i c v s).vcc = s.vcc := by simp [reportUnit]
@[simp] theorem reportUnit_vdrv (k : Byte) (u i c : Nat) (v : Int) (s : State) : (reportUnit k u i c v s).vdrv = s.vdrv := by simp [reportUnit]
@[simp] theorem reportUnit_sapling (k : Byte) (u i c : Nat) (v : Int) (s : State) : (reportUnit k u i c v s).sapling = s.sapling := by simp [reportUnit]
@[simp] theorem reportUnit_group (k : Byte) (u i c : Nat) (v : Int) (s : State) : (reportUnit k u i c v s).group = s.group := by simp [reportUnit]
@[simp] theorem reportUnit_conv (k : Byte) (u i c : Nat) (v : Int) (s : State) : (reportUnit k u i c v s).conv = s.conv := by simp [reportUnit]
@[simp] theorem reportUnit_therm (k : Byte) (u i c : Nat) (v : Int) (s : State) : (reportUnit k u i c v s).therm = s.therm := by simp [reportUnit]
@[simp] theorem reportUnit_eng (k : Byte) (u i c : Nat) (v : Int) (s : State) : (reportUnit k u i c v s).eng = s.eng := by simp [reportUnit]
@[simp] theorem reportUnit_fc_q8Seen (k : Byte) (u i c : Nat) (v : Int) (s : State) : (reportUnit k u i c v s).fc.q8Seen = s.fc.q8Seen := by simp [reportUnit]
@[simp] theorem reportUnit_fc_inject (k : Byte) (u i c : Nat) (v : Int) (s : State) : (reportUnit k u i c v s).fc.inject = s.fc.inject := by simp [reportUnit]
@[simp] theorem reportUnit_warden (k : Byte) (u i c : Nat) (v : Int) (s : State) : (reportUnit k u i c v s).warden = s.warden := by simp [reportUnit]
@[simp] theorem reportUnit_host (k : Byte) (u i c : Nat) (v : Int) (s : State) : (reportUnit k u i c v s).host = s.host := by simp [reportUnit]
@[simp] theorem reportUnit_mbox (k : Byte) (u i c : Nat) (v : Int) (s : State) : (reportUnit k u i c v s).mbox = s.mbox := by simp [reportUnit]
@[simp] theorem reportUnit_par (k : Byte) (u i c : Nat) (v : Int) (s : State) : (reportUnit k u i c v s).par = s.par := by simp [reportUnit]
@[simp] theorem reportUnit_otp (k : Byte) (u i c : Nat) (v : Int) (s : State) : (reportUnit k u i c v s).otp = s.otp := by simp [reportUnit]
@[simp] theorem reportUnit_snap (k : Byte) (u i c : Nat) (v : Int) (s : State) : (reportUnit k u i c v s).snap = s.snap := by simp [reportUnit]
@[simp] theorem reportUnit_stby (k : Byte) (u i c : Nat) (v : Int) (s : State) : (reportUnit k u i c v s).stby = s.stby := by simp [reportUnit]
@[simp] theorem reportUnit_sbus (k : Byte) (u i c : Nat) (v : Int) (s : State) : (reportUnit k u i c v s).sbus = s.sbus := by simp [reportUnit]

/-! ### unstall -/

@[simp] theorem unstall_pending (q : Fin 16) (s : State) : (unstall q s).pending = s.pending := by simp [unstall]
@[simp] theorem unstall_dev (q : Fin 16) (s : State) : (unstall q s).dev = s.dev := by simp [unstall]
@[simp] theorem unstall_boot (q : Fin 16) (s : State) : (unstall q s).boot = s.boot := by simp [unstall]
@[simp] theorem unstall_aon (q : Fin 16) (s : State) : (unstall q s).aon = s.aon := by simp [unstall]
@[simp] theorem unstall_clk (q : Fin 16) (s : State) : (unstall q s).clk = s.clk := by simp [unstall]
@[simp] theorem unstall_wires (q : Fin 16) (s : State) : (unstall q s).wires = s.wires := by simp [unstall]
@[simp] theorem unstall_tb (q : Fin 16) (s : State) : (unstall q s).tb = s.tb := by simp [unstall]
@[simp] theorem unstall_tbRuns (q : Fin 16) (s : State) : (unstall q s).tbRuns = s.tbRuns := by simp [unstall]
@[simp] theorem unstall_lastFrame (q : Fin 16) (s : State) : (unstall q s).lastFrame = s.lastFrame := by simp [unstall]
@[simp] theorem unstall_free (q : Fin 16) (s : State) : (unstall q s).free = s.free := by simp [unstall]
@[simp] theorem unstall_ride (q : Fin 16) (s : State) : (unstall q s).ride = s.ride := by simp [unstall]
@[simp] theorem unstall_tap (q : Fin 16) (s : State) : (unstall q s).tap = s.tap := by simp [unstall]
@[simp] theorem unstall_chan (q : Fin 16) (s : State) : (unstall q s).chan = s.chan := by simp [unstall]
@[simp] theorem unstall_phase (q : Fin 16) (s : State) : (unstall q s).phase = s.phase := by simp [unstall]
@[simp] theorem unstall_src (q : Fin 16) (s : State) : (unstall q s).src = s.src := by simp [unstall]
@[simp] theorem unstall_bat (q : Fin 16) (s : State) : (unstall q s).bat = s.bat := by simp [unstall]
@[simp] theorem unstall_usb (q : Fin 16) (s : State) : (unstall q s).usb = s.usb := by simp [unstall]
@[simp] theorem unstall_load (q : Fin 16) (s : State) : (unstall q s).load = s.load := by simp [unstall]
@[simp] theorem unstall_vcc (q : Fin 16) (s : State) : (unstall q s).vcc = s.vcc := by simp [unstall]
@[simp] theorem unstall_vdrv (q : Fin 16) (s : State) : (unstall q s).vdrv = s.vdrv := by simp [unstall]
@[simp] theorem unstall_sapling (q : Fin 16) (s : State) : (unstall q s).sapling = s.sapling := by simp [unstall]
@[simp] theorem unstall_group (q : Fin 16) (s : State) : (unstall q s).group = s.group := by simp [unstall]
@[simp] theorem unstall_conv (q : Fin 16) (s : State) : (unstall q s).conv = s.conv := by simp [unstall]
@[simp] theorem unstall_therm (q : Fin 16) (s : State) : (unstall q s).therm = s.therm := by simp [unstall]
@[simp] theorem unstall_eng (q : Fin 16) (s : State) : (unstall q s).eng = s.eng := by simp [unstall]
@[simp] theorem unstall_fc (q : Fin 16) (s : State) : (unstall q s).fc = s.fc := by simp [unstall]
@[simp] theorem unstall_warden (q : Fin 16) (s : State) : (unstall q s).warden = s.warden := by simp [unstall]
@[simp] theorem unstall_host_released (q : Fin 16) (s : State) : (unstall q s).host.released = s.host.released := by simp [unstall]
@[simp] theorem unstall_host_haddr (q : Fin 16) (s : State) : (unstall q s).host.haddr = s.host.haddr := by simp [unstall]
@[simp] theorem unstall_host_pointer (q : Fin 16) (s : State) : (unstall q s).host.pointer = s.host.pointer := by simp [unstall]
@[simp] theorem unstall_host_frameErr (q : Fin 16) (s : State) : (unstall q s).host.frameErr = s.host.frameErr := by simp [unstall]
@[simp] theorem unstall_host_busErr (q : Fin 16) (s : State) : (unstall q s).host.busErr = s.host.busErr := by simp [unstall]
@[simp] theorem unstall_host_hostErr (q : Fin 16) (s : State) : (unstall q s).host.hostErr = s.host.hostErr := by simp [unstall]
@[simp] theorem unstall_host_spiErr (q : Fin 16) (s : State) : (unstall q s).host.spiErr = s.host.spiErr := by simp [unstall]
@[simp] theorem unstall_host_hbusErr (q : Fin 16) (s : State) : (unstall q s).host.hbusErr = s.host.hbusErr := by simp [unstall]
@[simp] theorem unstall_host_spiProto (q : Fin 16) (s : State) : (unstall q s).host.spiProto = s.host.spiProto := by simp [unstall]
@[simp] theorem unstall_host_hbusProto (q : Fin 16) (s : State) : (unstall q s).host.hbusProto = s.host.hbusProto := by simp [unstall]
@[simp] theorem unstall_host_tbHiSpi (q : Fin 16) (s : State) : (unstall q s).host.tbHiSpi = s.host.tbHiSpi := by simp [unstall]
@[simp] theorem unstall_host_tbHiHbus (q : Fin 16) (s : State) : (unstall q s).host.tbHiHbus = s.host.tbHiHbus := by simp [unstall]
@[simp] theorem unstall_host_feHiSpi (q : Fin 16) (s : State) : (unstall q s).host.feHiSpi = s.host.feHiSpi := by simp [unstall]
@[simp] theorem unstall_host_feHiHbus (q : Fin 16) (s : State) : (unstall q s).host.feHiHbus = s.host.feHiHbus := by simp [unstall]
@[simp] theorem unstall_host_scratch (q : Fin 16) (s : State) : (unstall q s).host.scratch = s.host.scratch := by simp [unstall]
@[simp] theorem unstall_host_intPend (q : Fin 16) (s : State) : (unstall q s).host.intPend = s.host.intPend := by simp [unstall]
@[simp] theorem unstall_host_irqEn (q : Fin 16) (s : State) : (unstall q s).host.irqEn = s.host.irqEn := by simp [unstall]
@[simp] theorem unstall_host_alertEn (q : Fin 16) (s : State) : (unstall q s).host.alertEn = s.host.alertEn := by simp [unstall]
@[simp] theorem unstall_host_irqDue (q : Fin 16) (s : State) : (unstall q s).host.irqDue = s.host.irqDue := by simp [unstall]
@[simp] theorem unstall_host_alertDue (q : Fin 16) (s : State) : (unstall q s).host.alertDue = s.host.alertDue := by simp [unstall]
@[simp] theorem unstall_host_out (q : Fin 16) (s : State) : (unstall q s).host.out = s.host.out := by simp [unstall]
@[simp] theorem unstall_host_acks (q : Fin 16) (s : State) : (unstall q s).host.acks = s.host.acks := by simp [unstall]
@[simp] theorem unstall_mbox (q : Fin 16) (s : State) : (unstall q s).mbox = s.mbox := by simp [unstall]
@[simp] theorem unstall_par (q : Fin 16) (s : State) : (unstall q s).par = s.par := by simp [unstall]
@[simp] theorem unstall_otp (q : Fin 16) (s : State) : (unstall q s).otp = s.otp := by simp [unstall]
@[simp] theorem unstall_snap (q : Fin 16) (s : State) : (unstall q s).snap = s.snap := by simp [unstall]
@[simp] theorem unstall_stby (q : Fin 16) (s : State) : (unstall q s).stby = s.stby := by simp [unstall]
@[simp] theorem unstall_sbus (q : Fin 16) (s : State) : (unstall q s).sbus = s.sbus := by simp [unstall]

/-! ### overrunOne -/

@[simp] theorem overrunOne_pending (q : Fin 16) (m : BitVec 4) (s : State) : (overrunOne q m s).pending = s.pending := by
    unfold overrunOne; simp only []; repeat' split
    all_goals simp
@[simp] theorem overrunOne_dev (q : Fin 16) (m : BitVec 4) (s : State) : (overrunOne q m s).dev = s.dev := by
    unfold overrunOne; simp only []; repeat' split
    all_goals simp
@[simp] theorem overrunOne_boot (q : Fin 16) (m : BitVec 4) (s : State) : (overrunOne q m s).boot = s.boot := by
    unfold overrunOne; simp only []; repeat' split
    all_goals simp
@[simp] theorem overrunOne_aon (q : Fin 16) (m : BitVec 4) (s : State) : (overrunOne q m s).aon = s.aon := by
    unfold overrunOne; simp only []; repeat' split
    all_goals simp
@[simp] theorem overrunOne_clk (q : Fin 16) (m : BitVec 4) (s : State) : (overrunOne q m s).clk = s.clk := by
    unfold overrunOne; simp only []; repeat' split
    all_goals simp
@[simp] theorem overrunOne_wires (q : Fin 16) (m : BitVec 4) (s : State) : (overrunOne q m s).wires = s.wires := by
    unfold overrunOne; simp only []; repeat' split
    all_goals simp
@[simp] theorem overrunOne_tb (q : Fin 16) (m : BitVec 4) (s : State) : (overrunOne q m s).tb = s.tb := by
    unfold overrunOne; simp only []; repeat' split
    all_goals simp
@[simp] theorem overrunOne_tbRuns (q : Fin 16) (m : BitVec 4) (s : State) : (overrunOne q m s).tbRuns = s.tbRuns := by
    unfold overrunOne; simp only []; repeat' split
    all_goals simp
@[simp] theorem overrunOne_lastFrame (q : Fin 16) (m : BitVec 4) (s : State) : (overrunOne q m s).lastFrame = s.lastFrame := by
    unfold overrunOne; simp only []; repeat' split
    all_goals simp
@[simp] theorem overrunOne_free (q : Fin 16) (m : BitVec 4) (s : State) : (overrunOne q m s).free = s.free := by
    unfold overrunOne; simp only []; repeat' split
    all_goals simp
@[simp] theorem overrunOne_ride (q : Fin 16) (m : BitVec 4) (s : State) : (overrunOne q m s).ride = s.ride := by
    unfold overrunOne; simp only []; repeat' split
    all_goals simp
@[simp] theorem overrunOne_tap (q : Fin 16) (m : BitVec 4) (s : State) : (overrunOne q m s).tap = s.tap := by
    unfold overrunOne; simp only []; repeat' split
    all_goals simp
@[simp] theorem overrunOne_chan (q : Fin 16) (m : BitVec 4) (s : State) : (overrunOne q m s).chan = s.chan := by
    unfold overrunOne; simp only []; repeat' split
    all_goals simp
@[simp] theorem overrunOne_phase (q : Fin 16) (m : BitVec 4) (s : State) : (overrunOne q m s).phase = s.phase := by
    unfold overrunOne; simp only []; repeat' split
    all_goals simp
@[simp] theorem overrunOne_src (q : Fin 16) (m : BitVec 4) (s : State) : (overrunOne q m s).src = s.src := by
    unfold overrunOne; simp only []; repeat' split
    all_goals simp
@[simp] theorem overrunOne_bat (q : Fin 16) (m : BitVec 4) (s : State) : (overrunOne q m s).bat = s.bat := by
    unfold overrunOne; simp only []; repeat' split
    all_goals simp
@[simp] theorem overrunOne_usb (q : Fin 16) (m : BitVec 4) (s : State) : (overrunOne q m s).usb = s.usb := by
    unfold overrunOne; simp only []; repeat' split
    all_goals simp
@[simp] theorem overrunOne_load (q : Fin 16) (m : BitVec 4) (s : State) : (overrunOne q m s).load = s.load := by
    unfold overrunOne; simp only []; repeat' split
    all_goals simp
@[simp] theorem overrunOne_vcc (q : Fin 16) (m : BitVec 4) (s : State) : (overrunOne q m s).vcc = s.vcc := by
    unfold overrunOne; simp only []; repeat' split
    all_goals simp
@[simp] theorem overrunOne_vdrv (q : Fin 16) (m : BitVec 4) (s : State) : (overrunOne q m s).vdrv = s.vdrv := by
    unfold overrunOne; simp only []; repeat' split
    all_goals simp
@[simp] theorem overrunOne_sapling (q : Fin 16) (m : BitVec 4) (s : State) : (overrunOne q m s).sapling = s.sapling := by
    unfold overrunOne; simp only []; repeat' split
    all_goals simp
@[simp] theorem overrunOne_group (q : Fin 16) (m : BitVec 4) (s : State) : (overrunOne q m s).group = s.group := by
    unfold overrunOne; simp only []; repeat' split
    all_goals simp
@[simp] theorem overrunOne_conv (q : Fin 16) (m : BitVec 4) (s : State) : (overrunOne q m s).conv = s.conv := by
    unfold overrunOne; simp only []; repeat' split
    all_goals simp
@[simp] theorem overrunOne_therm (q : Fin 16) (m : BitVec 4) (s : State) : (overrunOne q m s).therm = s.therm := by
    unfold overrunOne; simp only []; repeat' split
    all_goals simp
@[simp] theorem overrunOne_eng (q : Fin 16) (m : BitVec 4) (s : State) : (overrunOne q m s).eng = s.eng := by
    unfold overrunOne; simp only []; repeat' split
    all_goals simp
@[simp] theorem overrunOne_fc_q8Seen (q : Fin 16) (m : BitVec 4) (s : State) : (overrunOne q m s).fc.q8Seen = s.fc.q8Seen := by
    unfold overrunOne; simp only []; repeat' split
    all_goals simp
@[simp] theorem overrunOne_fc_inject (q : Fin 16) (m : BitVec 4) (s : State) : (overrunOne q m s).fc.inject = s.fc.inject := by
    unfold overrunOne; simp only []; repeat' split
    all_goals simp
@[simp] theorem overrunOne_warden (q : Fin 16) (m : BitVec 4) (s : State) : (overrunOne q m s).warden = s.warden := by
    unfold overrunOne; simp only []; repeat' split
    all_goals simp
@[simp] theorem overrunOne_host (q : Fin 16) (m : BitVec 4) (s : State) : (overrunOne q m s).host = s.host := by
    unfold overrunOne; simp only []; repeat' split
    all_goals simp
@[simp] theorem overrunOne_mbox (q : Fin 16) (m : BitVec 4) (s : State) : (overrunOne q m s).mbox = s.mbox := by
    unfold overrunOne; simp only []; repeat' split
    all_goals simp
@[simp] theorem overrunOne_par (q : Fin 16) (m : BitVec 4) (s : State) : (overrunOne q m s).par = s.par := by
    unfold overrunOne; simp only []; repeat' split
    all_goals simp
@[simp] theorem overrunOne_otp (q : Fin 16) (m : BitVec 4) (s : State) : (overrunOne q m s).otp = s.otp := by
    unfold overrunOne; simp only []; repeat' split
    all_goals simp
@[simp] theorem overrunOne_snap (q : Fin 16) (m : BitVec 4) (s : State) : (overrunOne q m s).snap = s.snap := by
    unfold overrunOne; simp only []; repeat' split
    all_goals simp
@[simp] theorem overrunOne_stby (q : Fin 16) (m : BitVec 4) (s : State) : (overrunOne q m s).stby = s.stby := by
    unfold overrunOne; simp only []; repeat' split
    all_goals simp
@[simp] theorem overrunOne_sbus (q : Fin 16) (m : BitVec 4) (s : State) : (overrunOne q m s).sbus = s.sbus := by
    unfold overrunOne; simp only []; repeat' split
    all_goals simp

/-! ### putEvent -/

@[simp] theorem putEvent_pending (c : Half) (f : Bool) (t : TB) (d : List Byte) (s : State) : (putEvent c f t d s).pending = s.pending := by
    unfold putEvent; simp only []; split <;> simp
@[simp] theorem putEvent_dev (c : Half) (f : Bool) (t : TB) (d : List Byte) (s : State) : (putEvent c f t d s).dev = s.dev := by
    unfold putEvent; simp only []; split <;> simp
@[simp] theorem putEvent_boot (c : Half) (f : Bool) (t : TB) (d : List Byte) (s : State) : (putEvent c f t d s).boot = s.boot := by
    unfold putEvent; simp only []; split <;> simp
@[simp] theorem putEvent_aon (c : Half) (f : Bool) (t : TB) (d : List Byte) (s : State) : (putEvent c f t d s).aon = s.aon := by
    unfold putEvent; simp only []; split <;> simp
@[simp] theorem putEvent_clk (c : Half) (f : Bool) (t : TB) (d : List Byte) (s : State) : (putEvent c f t d s).clk = s.clk := by
    unfold putEvent; simp only []; split <;> simp
@[simp] theorem putEvent_wires (c : Half) (f : Bool) (t : TB) (d : List Byte) (s : State) : (putEvent c f t d s).wires = s.wires := by
    unfold putEvent; simp only []; split <;> simp
@[simp] theorem putEvent_tb (c : Half) (f : Bool) (t : TB) (d : List Byte) (s : State) : (putEvent c f t d s).tb = s.tb := by
    unfold putEvent; simp only []; split <;> simp
@[simp] theorem putEvent_tbRuns (c : Half) (f : Bool) (t : TB) (d : List Byte) (s : State) : (putEvent c f t d s).tbRuns = s.tbRuns := by
    unfold putEvent; simp only []; split <;> simp
@[simp] theorem putEvent_lastFrame (c : Half) (f : Bool) (t : TB) (d : List Byte) (s : State) : (putEvent c f t d s).lastFrame = s.lastFrame := by
    unfold putEvent; simp only []; split <;> simp
@[simp] theorem putEvent_free (c : Half) (f : Bool) (t : TB) (d : List Byte) (s : State) : (putEvent c f t d s).free = s.free := by
    unfold putEvent; simp only []; split <;> simp
@[simp] theorem putEvent_ride (c : Half) (f : Bool) (t : TB) (d : List Byte) (s : State) : (putEvent c f t d s).ride = s.ride := by
    unfold putEvent; simp only []; split <;> simp
@[simp] theorem putEvent_tap (c : Half) (f : Bool) (t : TB) (d : List Byte) (s : State) : (putEvent c f t d s).tap = s.tap := by
    unfold putEvent; simp only []; split <;> simp
@[simp] theorem putEvent_chan (c : Half) (f : Bool) (t : TB) (d : List Byte) (s : State) : (putEvent c f t d s).chan = s.chan := by
    unfold putEvent; simp only []; split <;> simp
@[simp] theorem putEvent_phase (c : Half) (f : Bool) (t : TB) (d : List Byte) (s : State) : (putEvent c f t d s).phase = s.phase := by
    unfold putEvent; simp only []; split <;> simp
@[simp] theorem putEvent_src (c : Half) (f : Bool) (t : TB) (d : List Byte) (s : State) : (putEvent c f t d s).src = s.src := by
    unfold putEvent; simp only []; split <;> simp
@[simp] theorem putEvent_bat (c : Half) (f : Bool) (t : TB) (d : List Byte) (s : State) : (putEvent c f t d s).bat = s.bat := by
    unfold putEvent; simp only []; split <;> simp
@[simp] theorem putEvent_usb (c : Half) (f : Bool) (t : TB) (d : List Byte) (s : State) : (putEvent c f t d s).usb = s.usb := by
    unfold putEvent; simp only []; split <;> simp
@[simp] theorem putEvent_load (c : Half) (f : Bool) (t : TB) (d : List Byte) (s : State) : (putEvent c f t d s).load = s.load := by
    unfold putEvent; simp only []; split <;> simp
@[simp] theorem putEvent_vcc (c : Half) (f : Bool) (t : TB) (d : List Byte) (s : State) : (putEvent c f t d s).vcc = s.vcc := by
    unfold putEvent; simp only []; split <;> simp
@[simp] theorem putEvent_vdrv (c : Half) (f : Bool) (t : TB) (d : List Byte) (s : State) : (putEvent c f t d s).vdrv = s.vdrv := by
    unfold putEvent; simp only []; split <;> simp
@[simp] theorem putEvent_sapling (c : Half) (f : Bool) (t : TB) (d : List Byte) (s : State) : (putEvent c f t d s).sapling = s.sapling := by
    unfold putEvent; simp only []; split <;> simp
@[simp] theorem putEvent_group (c : Half) (f : Bool) (t : TB) (d : List Byte) (s : State) : (putEvent c f t d s).group = s.group := by
    unfold putEvent; simp only []; split <;> simp
@[simp] theorem putEvent_conv (c : Half) (f : Bool) (t : TB) (d : List Byte) (s : State) : (putEvent c f t d s).conv = s.conv := by
    unfold putEvent; simp only []; split <;> simp
@[simp] theorem putEvent_therm (c : Half) (f : Bool) (t : TB) (d : List Byte) (s : State) : (putEvent c f t d s).therm = s.therm := by
    unfold putEvent; simp only []; split <;> simp
@[simp] theorem putEvent_eng (c : Half) (f : Bool) (t : TB) (d : List Byte) (s : State) : (putEvent c f t d s).eng = s.eng := by
    unfold putEvent; simp only []; split <;> simp
@[simp] theorem putEvent_fc (c : Half) (f : Bool) (t : TB) (d : List Byte) (s : State) : (putEvent c f t d s).fc = s.fc := by
    unfold putEvent; simp only []; split <;> simp
@[simp] theorem putEvent_warden_alive (c : Half) (f : Bool) (t : TB) (d : List Byte) (s : State) : (putEvent c f t d s).warden.alive = s.warden.alive := by
    unfold putEvent; simp only []; split <;> simp
@[simp] theorem putEvent_warden_standing (c : Half) (f : Bool) (t : TB) (d : List Byte) (s : State) : (putEvent c f t d s).warden.standing = s.warden.standing := by
    unfold putEvent; simp only []; split <;> simp
@[simp] theorem putEvent_warden_nextId (c : Half) (f : Bool) (t : TB) (d : List Byte) (s : State) : (putEvent c f t d s).warden.nextId = s.warden.nextId := by
    unfold putEvent; simp only []; split <;> simp
@[simp] theorem putEvent_warden_listFull (c : Half) (f : Bool) (t : TB) (d : List Byte) (s : State) : (putEvent c f t d s).warden.listFull = s.warden.listFull := by
    unfold putEvent; simp only []; split <;> simp
@[simp] theorem putEvent_warden_unrecorded (c : Half) (f : Bool) (t : TB) (d : List Byte) (s : State) : (putEvent c f t d s).warden.unrecorded = s.warden.unrecorded := by
    unfold putEvent; simp only []; split <;> simp
@[simp] theorem putEvent_warden_restarts (c : Half) (f : Bool) (t : TB) (d : List Byte) (s : State) : (putEvent c f t d s).warden.restarts = s.warden.restarts := by
    unfold putEvent; simp only []; split <;> simp
@[simp] theorem putEvent_warden_restartDue (c : Half) (f : Bool) (t : TB) (d : List Byte) (s : State) : (putEvent c f t d s).warden.restartDue = s.warden.restartDue := by
    unfold putEvent; simp only []; split <;> simp
@[simp] theorem putEvent_warden_keys (c : Half) (f : Bool) (t : TB) (d : List Byte) (s : State) : (putEvent c f t d s).warden.keys = s.warden.keys := by
    unfold putEvent; simp only []; split <;> simp
@[simp] theorem putEvent_warden_devStopRep (c : Half) (f : Bool) (t : TB) (d : List Byte) (s : State) : (putEvent c f t d s).warden.devStopRep = s.warden.devStopRep := by
    unfold putEvent; simp only []; split <;> simp
@[simp] theorem putEvent_host_released (c : Half) (f : Bool) (t : TB) (d : List Byte) (s : State) : (putEvent c f t d s).host.released = s.host.released := by
    unfold putEvent; simp only []; split <;> simp
@[simp] theorem putEvent_host_haddr (c : Half) (f : Bool) (t : TB) (d : List Byte) (s : State) : (putEvent c f t d s).host.haddr = s.host.haddr := by
    unfold putEvent; simp only []; split <;> simp
@[simp] theorem putEvent_host_pointer (c : Half) (f : Bool) (t : TB) (d : List Byte) (s : State) : (putEvent c f t d s).host.pointer = s.host.pointer := by
    unfold putEvent; simp only []; split <;> simp
@[simp] theorem putEvent_host_frameErr (c : Half) (f : Bool) (t : TB) (d : List Byte) (s : State) : (putEvent c f t d s).host.frameErr = s.host.frameErr := by
    unfold putEvent; simp only []; split <;> simp
@[simp] theorem putEvent_host_busErr (c : Half) (f : Bool) (t : TB) (d : List Byte) (s : State) : (putEvent c f t d s).host.busErr = s.host.busErr := by
    unfold putEvent; simp only []; split <;> simp
@[simp] theorem putEvent_host_hostErr (c : Half) (f : Bool) (t : TB) (d : List Byte) (s : State) : (putEvent c f t d s).host.hostErr = s.host.hostErr := by
    unfold putEvent; simp only []; split <;> simp
@[simp] theorem putEvent_host_spiErr (c : Half) (f : Bool) (t : TB) (d : List Byte) (s : State) : (putEvent c f t d s).host.spiErr = s.host.spiErr := by
    unfold putEvent; simp only []; split <;> simp
@[simp] theorem putEvent_host_hbusErr (c : Half) (f : Bool) (t : TB) (d : List Byte) (s : State) : (putEvent c f t d s).host.hbusErr = s.host.hbusErr := by
    unfold putEvent; simp only []; split <;> simp
@[simp] theorem putEvent_host_spiProto (c : Half) (f : Bool) (t : TB) (d : List Byte) (s : State) : (putEvent c f t d s).host.spiProto = s.host.spiProto := by
    unfold putEvent; simp only []; split <;> simp
@[simp] theorem putEvent_host_hbusProto (c : Half) (f : Bool) (t : TB) (d : List Byte) (s : State) : (putEvent c f t d s).host.hbusProto = s.host.hbusProto := by
    unfold putEvent; simp only []; split <;> simp
@[simp] theorem putEvent_host_tbHiSpi (c : Half) (f : Bool) (t : TB) (d : List Byte) (s : State) : (putEvent c f t d s).host.tbHiSpi = s.host.tbHiSpi := by
    unfold putEvent; simp only []; split <;> simp
@[simp] theorem putEvent_host_tbHiHbus (c : Half) (f : Bool) (t : TB) (d : List Byte) (s : State) : (putEvent c f t d s).host.tbHiHbus = s.host.tbHiHbus := by
    unfold putEvent; simp only []; split <;> simp
@[simp] theorem putEvent_host_feHiSpi (c : Half) (f : Bool) (t : TB) (d : List Byte) (s : State) : (putEvent c f t d s).host.feHiSpi = s.host.feHiSpi := by
    unfold putEvent; simp only []; split <;> simp
@[simp] theorem putEvent_host_feHiHbus (c : Half) (f : Bool) (t : TB) (d : List Byte) (s : State) : (putEvent c f t d s).host.feHiHbus = s.host.feHiHbus := by
    unfold putEvent; simp only []; split <;> simp
@[simp] theorem putEvent_host_scratch (c : Half) (f : Bool) (t : TB) (d : List Byte) (s : State) : (putEvent c f t d s).host.scratch = s.host.scratch := by
    unfold putEvent; simp only []; split <;> simp
@[simp] theorem putEvent_host_irqEn (c : Half) (f : Bool) (t : TB) (d : List Byte) (s : State) : (putEvent c f t d s).host.irqEn = s.host.irqEn := by
    unfold putEvent; simp only []; split <;> simp
@[simp] theorem putEvent_host_alertEn (c : Half) (f : Bool) (t : TB) (d : List Byte) (s : State) : (putEvent c f t d s).host.alertEn = s.host.alertEn := by
    unfold putEvent; simp only []; split <;> simp
@[simp] theorem putEvent_host_irqDue (c : Half) (f : Bool) (t : TB) (d : List Byte) (s : State) : (putEvent c f t d s).host.irqDue = s.host.irqDue := by
    unfold putEvent; simp only []; split <;> simp
@[simp] theorem putEvent_host_alertDue (c : Half) (f : Bool) (t : TB) (d : List Byte) (s : State) : (putEvent c f t d s).host.alertDue = s.host.alertDue := by
    unfold putEvent; simp only []; split <;> simp
@[simp] theorem putEvent_host_out (c : Half) (f : Bool) (t : TB) (d : List Byte) (s : State) : (putEvent c f t d s).host.out = s.host.out := by
    unfold putEvent; simp only []; split <;> simp
@[simp] theorem putEvent_host_acks (c : Half) (f : Bool) (t : TB) (d : List Byte) (s : State) : (putEvent c f t d s).host.acks = s.host.acks := by
    unfold putEvent; simp only []; split <;> simp
@[simp] theorem putEvent_mbox_ready (c : Half) (f : Bool) (t : TB) (d : List Byte) (s : State) : (putEvent c f t d s).mbox.ready = s.mbox.ready := by
    unfold putEvent; simp only []; split <;> simp
@[simp] theorem putEvent_mbox_q0mem (c : Half) (f : Bool) (t : TB) (d : List Byte) (s : State) : (putEvent c f t d s).mbox.q0mem = s.mbox.q0mem := by
    unfold putEvent; simp only []; split <;> simp
@[simp] theorem putEvent_mbox_q0By (c : Half) (f : Bool) (t : TB) (d : List Byte) (s : State) : (putEvent c f t d s).mbox.q0By = s.mbox.q0By := by
    unfold putEvent; simp only []; split <;> simp
@[simp] theorem putEvent_mbox_long (c : Half) (f : Bool) (t : TB) (d : List Byte) (s : State) : (putEvent c f t d s).mbox.long = s.mbox.long := by
    unfold putEvent; simp only []; split <;> simp
@[simp] theorem putEvent_mbox_tlmSeq (c : Half) (f : Bool) (t : TB) (d : List Byte) (s : State) : (putEvent c f t d s).mbox.tlmSeq = s.mbox.tlmSeq := by
    unfold putEvent; simp only []; split <;> simp
@[simp] theorem putEvent_mbox_tlmLost (c : Half) (f : Bool) (t : TB) (d : List Byte) (s : State) : (putEvent c f t d s).mbox.tlmLost = s.mbox.tlmLost := by
    unfold putEvent; simp only []; split <;> simp
@[simp] theorem putEvent_mbox_tlmNow (c : Half) (f : Bool) (t : TB) (d : List Byte) (s : State) : (putEvent c f t d s).mbox.tlmNow = s.mbox.tlmNow := by
    unfold putEvent; simp only []; split <;> simp
@[simp] theorem putEvent_mbox_tlmDone (c : Half) (f : Bool) (t : TB) (d : List Byte) (s : State) : (putEvent c f t d s).mbox.tlmDone = s.mbox.tlmDone := by
    unfold putEvent; simp only []; split <;> simp
@[simp] theorem putEvent_mbox_resetDue (c : Half) (f : Bool) (t : TB) (d : List Byte) (s : State) : (putEvent c f t d s).mbox.resetDue = s.mbox.resetDue := by
    unfold putEvent; simp only []; split <;> simp
@[simp] theorem putEvent_mbox_restartDue (c : Half) (f : Bool) (t : TB) (d : List Byte) (s : State) : (putEvent c f t d s).mbox.restartDue = s.mbox.restartDue := by
    unfold putEvent; simp only []; split <;> simp
@[simp] theorem putEvent_mbox_shipDue (c : Half) (f : Bool) (t : TB) (d : List Byte) (s : State) : (putEvent c f t d s).mbox.shipDue = s.mbox.shipDue := by
    unfold putEvent; simp only []; split <;> simp
@[simp] theorem putEvent_mbox_stage (c : Half) (f : Bool) (t : TB) (d : List Byte) (s : State) : (putEvent c f t d s).mbox.stage = s.mbox.stage := by
    unfold putEvent; simp only []; split <;> simp
@[simp] theorem putEvent_mbox_stageLen (c : Half) (f : Bool) (t : TB) (d : List Byte) (s : State) : (putEvent c f t d s).mbox.stageLen = s.mbox.stageLen := by
    unfold putEvent; simp only []; split <;> simp
@[simp] theorem putEvent_mbox_patch (c : Half) (f : Bool) (t : TB) (d : List Byte) (s : State) : (putEvent c f t d s).mbox.patch = s.mbox.patch := by
    unfold putEvent; simp only []; split <;> simp
@[simp] theorem putEvent_mbox_patchLen (c : Half) (f : Bool) (t : TB) (d : List Byte) (s : State) : (putEvent c f t d s).mbox.patchLen = s.mbox.patchLen := by
    unfold putEvent; simp only []; split <;> simp
@[simp] theorem putEvent_mbox_patched (c : Half) (f : Bool) (t : TB) (d : List Byte) (s : State) : (putEvent c f t d s).mbox.patched = s.mbox.patched := by
    unfold putEvent; simp only []; split <;> simp
@[simp] theorem putEvent_mbox_patchDig (c : Half) (f : Bool) (t : TB) (d : List Byte) (s : State) : (putEvent c f t d s).mbox.patchDig = s.mbox.patchDig := by
    unfold putEvent; simp only []; split <;> simp
@[simp] theorem putEvent_mbox_patchDue (c : Half) (f : Bool) (t : TB) (d : List Byte) (s : State) : (putEvent c f t d s).mbox.patchDue = s.mbox.patchDue := by
    unfold putEvent; simp only []; split <;> simp
@[simp] theorem putEvent_mbox_restarted (c : Half) (f : Bool) (t : TB) (d : List Byte) (s : State) : (putEvent c f t d s).mbox.restarted = s.mbox.restarted := by
    unfold putEvent; simp only []; split <;> simp
@[simp] theorem putEvent_par (c : Half) (f : Bool) (t : TB) (d : List Byte) (s : State) : (putEvent c f t d s).par = s.par := by
    unfold putEvent; simp only []; split <;> simp
@[simp] theorem putEvent_otp (c : Half) (f : Bool) (t : TB) (d : List Byte) (s : State) : (putEvent c f t d s).otp = s.otp := by
    unfold putEvent; simp only []; split <;> simp
@[simp] theorem putEvent_snap (c : Half) (f : Bool) (t : TB) (d : List Byte) (s : State) : (putEvent c f t d s).snap = s.snap := by
    unfold putEvent; simp only []; split <;> simp
@[simp] theorem putEvent_stby (c : Half) (f : Bool) (t : TB) (d : List Byte) (s : State) : (putEvent c f t d s).stby = s.stby := by
    unfold putEvent; simp only []; split <;> simp
@[simp] theorem putEvent_sbus (c : Half) (f : Bool) (t : TB) (d : List Byte) (s : State) : (putEvent c f t d s).sbus = s.sbus := by
    unfold putEvent; simp only []; split <;> simp

/-! ### flushLost -/

@[simp] theorem flushLost_pending (s : State) : (flushLost s).pending = s.pending := by
    unfold flushLost; simp only []; split <;> simp
@[simp] theorem flushLost_dev (s : State) : (flushLost s).dev = s.dev := by
    unfold flushLost; simp only []; split <;> simp
@[simp] theorem flushLost_boot (s : State) : (flushLost s).boot = s.boot := by
    unfold flushLost; simp only []; split <;> simp
@[simp] theorem flushLost_aon (s : State) : (flushLost s).aon = s.aon := by
    unfold flushLost; simp only []; split <;> simp
@[simp] theorem flushLost_clk (s : State) : (flushLost s).clk = s.clk := by
    unfold flushLost; simp only []; split <;> simp
@[simp] theorem flushLost_wires (s : State) : (flushLost s).wires = s.wires := by
    unfold flushLost; simp only []; split <;> simp
@[simp] theorem flushLost_tb (s : State) : (flushLost s).tb = s.tb := by
    unfold flushLost; simp only []; split <;> simp
@[simp] theorem flushLost_tbRuns (s : State) : (flushLost s).tbRuns = s.tbRuns := by
    unfold flushLost; simp only []; split <;> simp
@[simp] theorem flushLost_lastFrame (s : State) : (flushLost s).lastFrame = s.lastFrame := by
    unfold flushLost; simp only []; split <;> simp
@[simp] theorem flushLost_free (s : State) : (flushLost s).free = s.free := by
    unfold flushLost; simp only []; split <;> simp
@[simp] theorem flushLost_ride (s : State) : (flushLost s).ride = s.ride := by
    unfold flushLost; simp only []; split <;> simp
@[simp] theorem flushLost_tap (s : State) : (flushLost s).tap = s.tap := by
    unfold flushLost; simp only []; split <;> simp
@[simp] theorem flushLost_chan (s : State) : (flushLost s).chan = s.chan := by
    unfold flushLost; simp only []; split <;> simp
@[simp] theorem flushLost_phase (s : State) : (flushLost s).phase = s.phase := by
    unfold flushLost; simp only []; split <;> simp
@[simp] theorem flushLost_src (s : State) : (flushLost s).src = s.src := by
    unfold flushLost; simp only []; split <;> simp
@[simp] theorem flushLost_bat (s : State) : (flushLost s).bat = s.bat := by
    unfold flushLost; simp only []; split <;> simp
@[simp] theorem flushLost_usb (s : State) : (flushLost s).usb = s.usb := by
    unfold flushLost; simp only []; split <;> simp
@[simp] theorem flushLost_load (s : State) : (flushLost s).load = s.load := by
    unfold flushLost; simp only []; split <;> simp
@[simp] theorem flushLost_vcc (s : State) : (flushLost s).vcc = s.vcc := by
    unfold flushLost; simp only []; split <;> simp
@[simp] theorem flushLost_vdrv (s : State) : (flushLost s).vdrv = s.vdrv := by
    unfold flushLost; simp only []; split <;> simp
@[simp] theorem flushLost_sapling (s : State) : (flushLost s).sapling = s.sapling := by
    unfold flushLost; simp only []; split <;> simp
@[simp] theorem flushLost_group (s : State) : (flushLost s).group = s.group := by
    unfold flushLost; simp only []; split <;> simp
@[simp] theorem flushLost_conv (s : State) : (flushLost s).conv = s.conv := by
    unfold flushLost; simp only []; split <;> simp
@[simp] theorem flushLost_therm (s : State) : (flushLost s).therm = s.therm := by
    unfold flushLost; simp only []; split <;> simp
@[simp] theorem flushLost_eng (s : State) : (flushLost s).eng = s.eng := by
    unfold flushLost; simp only []; split <;> simp
@[simp] theorem flushLost_fc (s : State) : (flushLost s).fc = s.fc := by
    unfold flushLost; simp only []; split <;> simp
@[simp] theorem flushLost_warden_alive (s : State) : (flushLost s).warden.alive = s.warden.alive := by
    unfold flushLost; simp only []; split <;> simp
@[simp] theorem flushLost_warden_standing (s : State) : (flushLost s).warden.standing = s.warden.standing := by
    unfold flushLost; simp only []; split <;> simp
@[simp] theorem flushLost_warden_nextId (s : State) : (flushLost s).warden.nextId = s.warden.nextId := by
    unfold flushLost; simp only []; split <;> simp
@[simp] theorem flushLost_warden_listFull (s : State) : (flushLost s).warden.listFull = s.warden.listFull := by
    unfold flushLost; simp only []; split <;> simp
@[simp] theorem flushLost_warden_unrecorded (s : State) : (flushLost s).warden.unrecorded = s.warden.unrecorded := by
    unfold flushLost; simp only []; split <;> simp
@[simp] theorem flushLost_warden_restarts (s : State) : (flushLost s).warden.restarts = s.warden.restarts := by
    unfold flushLost; simp only []; split <;> simp
@[simp] theorem flushLost_warden_restartDue (s : State) : (flushLost s).warden.restartDue = s.warden.restartDue := by
    unfold flushLost; simp only []; split <;> simp
@[simp] theorem flushLost_warden_keys (s : State) : (flushLost s).warden.keys = s.warden.keys := by
    unfold flushLost; simp only []; split <;> simp
@[simp] theorem flushLost_warden_devStopRep (s : State) : (flushLost s).warden.devStopRep = s.warden.devStopRep := by
    unfold flushLost; simp only []; split <;> simp
@[simp] theorem flushLost_host_released (s : State) : (flushLost s).host.released = s.host.released := by
    unfold flushLost; simp only []; split <;> simp
@[simp] theorem flushLost_host_haddr (s : State) : (flushLost s).host.haddr = s.host.haddr := by
    unfold flushLost; simp only []; split <;> simp
@[simp] theorem flushLost_host_pointer (s : State) : (flushLost s).host.pointer = s.host.pointer := by
    unfold flushLost; simp only []; split <;> simp
@[simp] theorem flushLost_host_frameErr (s : State) : (flushLost s).host.frameErr = s.host.frameErr := by
    unfold flushLost; simp only []; split <;> simp
@[simp] theorem flushLost_host_busErr (s : State) : (flushLost s).host.busErr = s.host.busErr := by
    unfold flushLost; simp only []; split <;> simp
@[simp] theorem flushLost_host_hostErr (s : State) : (flushLost s).host.hostErr = s.host.hostErr := by
    unfold flushLost; simp only []; split <;> simp
@[simp] theorem flushLost_host_spiErr (s : State) : (flushLost s).host.spiErr = s.host.spiErr := by
    unfold flushLost; simp only []; split <;> simp
@[simp] theorem flushLost_host_hbusErr (s : State) : (flushLost s).host.hbusErr = s.host.hbusErr := by
    unfold flushLost; simp only []; split <;> simp
@[simp] theorem flushLost_host_spiProto (s : State) : (flushLost s).host.spiProto = s.host.spiProto := by
    unfold flushLost; simp only []; split <;> simp
@[simp] theorem flushLost_host_hbusProto (s : State) : (flushLost s).host.hbusProto = s.host.hbusProto := by
    unfold flushLost; simp only []; split <;> simp
@[simp] theorem flushLost_host_tbHiSpi (s : State) : (flushLost s).host.tbHiSpi = s.host.tbHiSpi := by
    unfold flushLost; simp only []; split <;> simp
@[simp] theorem flushLost_host_tbHiHbus (s : State) : (flushLost s).host.tbHiHbus = s.host.tbHiHbus := by
    unfold flushLost; simp only []; split <;> simp
@[simp] theorem flushLost_host_feHiSpi (s : State) : (flushLost s).host.feHiSpi = s.host.feHiSpi := by
    unfold flushLost; simp only []; split <;> simp
@[simp] theorem flushLost_host_feHiHbus (s : State) : (flushLost s).host.feHiHbus = s.host.feHiHbus := by
    unfold flushLost; simp only []; split <;> simp
@[simp] theorem flushLost_host_scratch (s : State) : (flushLost s).host.scratch = s.host.scratch := by
    unfold flushLost; simp only []; split <;> simp
@[simp] theorem flushLost_host_irqEn (s : State) : (flushLost s).host.irqEn = s.host.irqEn := by
    unfold flushLost; simp only []; split <;> simp
@[simp] theorem flushLost_host_alertEn (s : State) : (flushLost s).host.alertEn = s.host.alertEn := by
    unfold flushLost; simp only []; split <;> simp
@[simp] theorem flushLost_host_irqDue (s : State) : (flushLost s).host.irqDue = s.host.irqDue := by
    unfold flushLost; simp only []; split <;> simp
@[simp] theorem flushLost_host_alertDue (s : State) : (flushLost s).host.alertDue = s.host.alertDue := by
    unfold flushLost; simp only []; split <;> simp
@[simp] theorem flushLost_host_out (s : State) : (flushLost s).host.out = s.host.out := by
    unfold flushLost; simp only []; split <;> simp
@[simp] theorem flushLost_host_acks (s : State) : (flushLost s).host.acks = s.host.acks := by
    unfold flushLost; simp only []; split <;> simp
@[simp] theorem flushLost_mbox_ready (s : State) : (flushLost s).mbox.ready = s.mbox.ready := by
    unfold flushLost; simp only []; split <;> simp
@[simp] theorem flushLost_mbox_q0mem (s : State) : (flushLost s).mbox.q0mem = s.mbox.q0mem := by
    unfold flushLost; simp only []; split <;> simp
@[simp] theorem flushLost_mbox_q0By (s : State) : (flushLost s).mbox.q0By = s.mbox.q0By := by
    unfold flushLost; simp only []; split <;> simp
@[simp] theorem flushLost_mbox_long (s : State) : (flushLost s).mbox.long = s.mbox.long := by
    unfold flushLost; simp only []; split <;> simp
@[simp] theorem flushLost_mbox_tlmSeq (s : State) : (flushLost s).mbox.tlmSeq = s.mbox.tlmSeq := by
    unfold flushLost; simp only []; split <;> simp
@[simp] theorem flushLost_mbox_tlmLost (s : State) : (flushLost s).mbox.tlmLost = s.mbox.tlmLost := by
    unfold flushLost; simp only []; split <;> simp
@[simp] theorem flushLost_mbox_tlmNow (s : State) : (flushLost s).mbox.tlmNow = s.mbox.tlmNow := by
    unfold flushLost; simp only []; split <;> simp
@[simp] theorem flushLost_mbox_tlmDone (s : State) : (flushLost s).mbox.tlmDone = s.mbox.tlmDone := by
    unfold flushLost; simp only []; split <;> simp
@[simp] theorem flushLost_mbox_resetDue (s : State) : (flushLost s).mbox.resetDue = s.mbox.resetDue := by
    unfold flushLost; simp only []; split <;> simp
@[simp] theorem flushLost_mbox_restartDue (s : State) : (flushLost s).mbox.restartDue = s.mbox.restartDue := by
    unfold flushLost; simp only []; split <;> simp
@[simp] theorem flushLost_mbox_shipDue (s : State) : (flushLost s).mbox.shipDue = s.mbox.shipDue := by
    unfold flushLost; simp only []; split <;> simp
@[simp] theorem flushLost_mbox_stage (s : State) : (flushLost s).mbox.stage = s.mbox.stage := by
    unfold flushLost; simp only []; split <;> simp
@[simp] theorem flushLost_mbox_stageLen (s : State) : (flushLost s).mbox.stageLen = s.mbox.stageLen := by
    unfold flushLost; simp only []; split <;> simp
@[simp] theorem flushLost_mbox_patch (s : State) : (flushLost s).mbox.patch = s.mbox.patch := by
    unfold flushLost; simp only []; split <;> simp
@[simp] theorem flushLost_mbox_patchLen (s : State) : (flushLost s).mbox.patchLen = s.mbox.patchLen := by
    unfold flushLost; simp only []; split <;> simp
@[simp] theorem flushLost_mbox_patched (s : State) : (flushLost s).mbox.patched = s.mbox.patched := by
    unfold flushLost; simp only []; split <;> simp
@[simp] theorem flushLost_mbox_patchDig (s : State) : (flushLost s).mbox.patchDig = s.mbox.patchDig := by
    unfold flushLost; simp only []; split <;> simp
@[simp] theorem flushLost_mbox_patchDue (s : State) : (flushLost s).mbox.patchDue = s.mbox.patchDue := by
    unfold flushLost; simp only []; split <;> simp
@[simp] theorem flushLost_mbox_restarted (s : State) : (flushLost s).mbox.restarted = s.mbox.restarted := by
    unfold flushLost; simp only []; split <;> simp
@[simp] theorem flushLost_par (s : State) : (flushLost s).par = s.par := by
    unfold flushLost; simp only []; split <;> simp
@[simp] theorem flushLost_otp (s : State) : (flushLost s).otp = s.otp := by
    unfold flushLost; simp only []; split <;> simp
@[simp] theorem flushLost_snap (s : State) : (flushLost s).snap = s.snap := by
    unfold flushLost; simp only []; split <;> simp
@[simp] theorem flushLost_stby (s : State) : (flushLost s).stby = s.stby := by
    unfold flushLost; simp only []; split <;> simp
@[simp] theorem flushLost_sbus (s : State) : (flushLost s).sbus = s.sbus := by
    unfold flushLost; simp only []; split <;> simp

/-! ### pushEventAt -/

@[simp] theorem pushEventAt_pending (t : TB) (c : Half) (f : Bool) (d : List Byte) (s : State) : (pushEventAt t c f d s).pending = s.pending := by
    unfold pushEventAt; simp only []; repeat' split
    all_goals simp
@[simp] theorem pushEventAt_dev (t : TB) (c : Half) (f : Bool) (d : List Byte) (s : State) : (pushEventAt t c f d s).dev = s.dev := by
    unfold pushEventAt; simp only []; repeat' split
    all_goals simp
@[simp] theorem pushEventAt_boot (t : TB) (c : Half) (f : Bool) (d : List Byte) (s : State) : (pushEventAt t c f d s).boot = s.boot := by
    unfold pushEventAt; simp only []; repeat' split
    all_goals simp
@[simp] theorem pushEventAt_aon (t : TB) (c : Half) (f : Bool) (d : List Byte) (s : State) : (pushEventAt t c f d s).aon = s.aon := by
    unfold pushEventAt; simp only []; repeat' split
    all_goals simp
@[simp] theorem pushEventAt_clk (t : TB) (c : Half) (f : Bool) (d : List Byte) (s : State) : (pushEventAt t c f d s).clk = s.clk := by
    unfold pushEventAt; simp only []; repeat' split
    all_goals simp
@[simp] theorem pushEventAt_wires (t : TB) (c : Half) (f : Bool) (d : List Byte) (s : State) : (pushEventAt t c f d s).wires = s.wires := by
    unfold pushEventAt; simp only []; repeat' split
    all_goals simp
@[simp] theorem pushEventAt_tb (t : TB) (c : Half) (f : Bool) (d : List Byte) (s : State) : (pushEventAt t c f d s).tb = s.tb := by
    unfold pushEventAt; simp only []; repeat' split
    all_goals simp
@[simp] theorem pushEventAt_tbRuns (t : TB) (c : Half) (f : Bool) (d : List Byte) (s : State) : (pushEventAt t c f d s).tbRuns = s.tbRuns := by
    unfold pushEventAt; simp only []; repeat' split
    all_goals simp
@[simp] theorem pushEventAt_lastFrame (t : TB) (c : Half) (f : Bool) (d : List Byte) (s : State) : (pushEventAt t c f d s).lastFrame = s.lastFrame := by
    unfold pushEventAt; simp only []; repeat' split
    all_goals simp
@[simp] theorem pushEventAt_free (t : TB) (c : Half) (f : Bool) (d : List Byte) (s : State) : (pushEventAt t c f d s).free = s.free := by
    unfold pushEventAt; simp only []; repeat' split
    all_goals simp
@[simp] theorem pushEventAt_ride (t : TB) (c : Half) (f : Bool) (d : List Byte) (s : State) : (pushEventAt t c f d s).ride = s.ride := by
    unfold pushEventAt; simp only []; repeat' split
    all_goals simp
@[simp] theorem pushEventAt_tap (t : TB) (c : Half) (f : Bool) (d : List Byte) (s : State) : (pushEventAt t c f d s).tap = s.tap := by
    unfold pushEventAt; simp only []; repeat' split
    all_goals simp
@[simp] theorem pushEventAt_chan (t : TB) (c : Half) (f : Bool) (d : List Byte) (s : State) : (pushEventAt t c f d s).chan = s.chan := by
    unfold pushEventAt; simp only []; repeat' split
    all_goals simp
@[simp] theorem pushEventAt_phase (t : TB) (c : Half) (f : Bool) (d : List Byte) (s : State) : (pushEventAt t c f d s).phase = s.phase := by
    unfold pushEventAt; simp only []; repeat' split
    all_goals simp
@[simp] theorem pushEventAt_src (t : TB) (c : Half) (f : Bool) (d : List Byte) (s : State) : (pushEventAt t c f d s).src = s.src := by
    unfold pushEventAt; simp only []; repeat' split
    all_goals simp
@[simp] theorem pushEventAt_bat (t : TB) (c : Half) (f : Bool) (d : List Byte) (s : State) : (pushEventAt t c f d s).bat = s.bat := by
    unfold pushEventAt; simp only []; repeat' split
    all_goals simp
@[simp] theorem pushEventAt_usb (t : TB) (c : Half) (f : Bool) (d : List Byte) (s : State) : (pushEventAt t c f d s).usb = s.usb := by
    unfold pushEventAt; simp only []; repeat' split
    all_goals simp
@[simp] theorem pushEventAt_load (t : TB) (c : Half) (f : Bool) (d : List Byte) (s : State) : (pushEventAt t c f d s).load = s.load := by
    unfold pushEventAt; simp only []; repeat' split
    all_goals simp
@[simp] theorem pushEventAt_vcc (t : TB) (c : Half) (f : Bool) (d : List Byte) (s : State) : (pushEventAt t c f d s).vcc = s.vcc := by
    unfold pushEventAt; simp only []; repeat' split
    all_goals simp
@[simp] theorem pushEventAt_vdrv (t : TB) (c : Half) (f : Bool) (d : List Byte) (s : State) : (pushEventAt t c f d s).vdrv = s.vdrv := by
    unfold pushEventAt; simp only []; repeat' split
    all_goals simp
@[simp] theorem pushEventAt_sapling (t : TB) (c : Half) (f : Bool) (d : List Byte) (s : State) : (pushEventAt t c f d s).sapling = s.sapling := by
    unfold pushEventAt; simp only []; repeat' split
    all_goals simp
@[simp] theorem pushEventAt_group (t : TB) (c : Half) (f : Bool) (d : List Byte) (s : State) : (pushEventAt t c f d s).group = s.group := by
    unfold pushEventAt; simp only []; repeat' split
    all_goals simp
@[simp] theorem pushEventAt_conv (t : TB) (c : Half) (f : Bool) (d : List Byte) (s : State) : (pushEventAt t c f d s).conv = s.conv := by
    unfold pushEventAt; simp only []; repeat' split
    all_goals simp
@[simp] theorem pushEventAt_therm (t : TB) (c : Half) (f : Bool) (d : List Byte) (s : State) : (pushEventAt t c f d s).therm = s.therm := by
    unfold pushEventAt; simp only []; repeat' split
    all_goals simp
@[simp] theorem pushEventAt_eng (t : TB) (c : Half) (f : Bool) (d : List Byte) (s : State) : (pushEventAt t c f d s).eng = s.eng := by
    unfold pushEventAt; simp only []; repeat' split
    all_goals simp
@[simp] theorem pushEventAt_fc (t : TB) (c : Half) (f : Bool) (d : List Byte) (s : State) : (pushEventAt t c f d s).fc = s.fc := by
    unfold pushEventAt; simp only []; repeat' split
    all_goals simp
@[simp] theorem pushEventAt_warden_alive (t : TB) (c : Half) (f : Bool) (d : List Byte) (s : State) : (pushEventAt t c f d s).warden.alive = s.warden.alive := by
    unfold pushEventAt; simp only []; repeat' split
    all_goals simp
@[simp] theorem pushEventAt_warden_standing (t : TB) (c : Half) (f : Bool) (d : List Byte) (s : State) : (pushEventAt t c f d s).warden.standing = s.warden.standing := by
    unfold pushEventAt; simp only []; repeat' split
    all_goals simp
@[simp] theorem pushEventAt_warden_nextId (t : TB) (c : Half) (f : Bool) (d : List Byte) (s : State) : (pushEventAt t c f d s).warden.nextId = s.warden.nextId := by
    unfold pushEventAt; simp only []; repeat' split
    all_goals simp
@[simp] theorem pushEventAt_warden_listFull (t : TB) (c : Half) (f : Bool) (d : List Byte) (s : State) : (pushEventAt t c f d s).warden.listFull = s.warden.listFull := by
    unfold pushEventAt; simp only []; repeat' split
    all_goals simp
@[simp] theorem pushEventAt_warden_unrecorded (t : TB) (c : Half) (f : Bool) (d : List Byte) (s : State) : (pushEventAt t c f d s).warden.unrecorded = s.warden.unrecorded := by
    unfold pushEventAt; simp only []; repeat' split
    all_goals simp
@[simp] theorem pushEventAt_warden_restarts (t : TB) (c : Half) (f : Bool) (d : List Byte) (s : State) : (pushEventAt t c f d s).warden.restarts = s.warden.restarts := by
    unfold pushEventAt; simp only []; repeat' split
    all_goals simp
@[simp] theorem pushEventAt_warden_restartDue (t : TB) (c : Half) (f : Bool) (d : List Byte) (s : State) : (pushEventAt t c f d s).warden.restartDue = s.warden.restartDue := by
    unfold pushEventAt; simp only []; repeat' split
    all_goals simp
@[simp] theorem pushEventAt_warden_keys (t : TB) (c : Half) (f : Bool) (d : List Byte) (s : State) : (pushEventAt t c f d s).warden.keys = s.warden.keys := by
    unfold pushEventAt; simp only []; repeat' split
    all_goals simp
@[simp] theorem pushEventAt_warden_devStopRep (t : TB) (c : Half) (f : Bool) (d : List Byte) (s : State) : (pushEventAt t c f d s).warden.devStopRep = s.warden.devStopRep := by
    unfold pushEventAt; simp only []; repeat' split
    all_goals simp
@[simp] theorem pushEventAt_host_released (t : TB) (c : Half) (f : Bool) (d : List Byte) (s : State) : (pushEventAt t c f d s).host.released = s.host.released := by
    unfold pushEventAt; simp only []; repeat' split
    all_goals simp
@[simp] theorem pushEventAt_host_haddr (t : TB) (c : Half) (f : Bool) (d : List Byte) (s : State) : (pushEventAt t c f d s).host.haddr = s.host.haddr := by
    unfold pushEventAt; simp only []; repeat' split
    all_goals simp
@[simp] theorem pushEventAt_host_pointer (t : TB) (c : Half) (f : Bool) (d : List Byte) (s : State) : (pushEventAt t c f d s).host.pointer = s.host.pointer := by
    unfold pushEventAt; simp only []; repeat' split
    all_goals simp
@[simp] theorem pushEventAt_host_frameErr (t : TB) (c : Half) (f : Bool) (d : List Byte) (s : State) : (pushEventAt t c f d s).host.frameErr = s.host.frameErr := by
    unfold pushEventAt; simp only []; repeat' split
    all_goals simp
@[simp] theorem pushEventAt_host_busErr (t : TB) (c : Half) (f : Bool) (d : List Byte) (s : State) : (pushEventAt t c f d s).host.busErr = s.host.busErr := by
    unfold pushEventAt; simp only []; repeat' split
    all_goals simp
@[simp] theorem pushEventAt_host_hostErr (t : TB) (c : Half) (f : Bool) (d : List Byte) (s : State) : (pushEventAt t c f d s).host.hostErr = s.host.hostErr := by
    unfold pushEventAt; simp only []; repeat' split
    all_goals simp
@[simp] theorem pushEventAt_host_spiErr (t : TB) (c : Half) (f : Bool) (d : List Byte) (s : State) : (pushEventAt t c f d s).host.spiErr = s.host.spiErr := by
    unfold pushEventAt; simp only []; repeat' split
    all_goals simp
@[simp] theorem pushEventAt_host_hbusErr (t : TB) (c : Half) (f : Bool) (d : List Byte) (s : State) : (pushEventAt t c f d s).host.hbusErr = s.host.hbusErr := by
    unfold pushEventAt; simp only []; repeat' split
    all_goals simp
@[simp] theorem pushEventAt_host_spiProto (t : TB) (c : Half) (f : Bool) (d : List Byte) (s : State) : (pushEventAt t c f d s).host.spiProto = s.host.spiProto := by
    unfold pushEventAt; simp only []; repeat' split
    all_goals simp
@[simp] theorem pushEventAt_host_hbusProto (t : TB) (c : Half) (f : Bool) (d : List Byte) (s : State) : (pushEventAt t c f d s).host.hbusProto = s.host.hbusProto := by
    unfold pushEventAt; simp only []; repeat' split
    all_goals simp
@[simp] theorem pushEventAt_host_tbHiSpi (t : TB) (c : Half) (f : Bool) (d : List Byte) (s : State) : (pushEventAt t c f d s).host.tbHiSpi = s.host.tbHiSpi := by
    unfold pushEventAt; simp only []; repeat' split
    all_goals simp
@[simp] theorem pushEventAt_host_tbHiHbus (t : TB) (c : Half) (f : Bool) (d : List Byte) (s : State) : (pushEventAt t c f d s).host.tbHiHbus = s.host.tbHiHbus := by
    unfold pushEventAt; simp only []; repeat' split
    all_goals simp
@[simp] theorem pushEventAt_host_feHiSpi (t : TB) (c : Half) (f : Bool) (d : List Byte) (s : State) : (pushEventAt t c f d s).host.feHiSpi = s.host.feHiSpi := by
    unfold pushEventAt; simp only []; repeat' split
    all_goals simp
@[simp] theorem pushEventAt_host_feHiHbus (t : TB) (c : Half) (f : Bool) (d : List Byte) (s : State) : (pushEventAt t c f d s).host.feHiHbus = s.host.feHiHbus := by
    unfold pushEventAt; simp only []; repeat' split
    all_goals simp
@[simp] theorem pushEventAt_host_scratch (t : TB) (c : Half) (f : Bool) (d : List Byte) (s : State) : (pushEventAt t c f d s).host.scratch = s.host.scratch := by
    unfold pushEventAt; simp only []; repeat' split
    all_goals simp
@[simp] theorem pushEventAt_host_irqEn (t : TB) (c : Half) (f : Bool) (d : List Byte) (s : State) : (pushEventAt t c f d s).host.irqEn = s.host.irqEn := by
    unfold pushEventAt; simp only []; repeat' split
    all_goals simp
@[simp] theorem pushEventAt_host_alertEn (t : TB) (c : Half) (f : Bool) (d : List Byte) (s : State) : (pushEventAt t c f d s).host.alertEn = s.host.alertEn := by
    unfold pushEventAt; simp only []; repeat' split
    all_goals simp
@[simp] theorem pushEventAt_host_irqDue (t : TB) (c : Half) (f : Bool) (d : List Byte) (s : State) : (pushEventAt t c f d s).host.irqDue = s.host.irqDue := by
    unfold pushEventAt; simp only []; repeat' split
    all_goals simp
@[simp] theorem pushEventAt_host_alertDue (t : TB) (c : Half) (f : Bool) (d : List Byte) (s : State) : (pushEventAt t c f d s).host.alertDue = s.host.alertDue := by
    unfold pushEventAt; simp only []; repeat' split
    all_goals simp
@[simp] theorem pushEventAt_host_out (t : TB) (c : Half) (f : Bool) (d : List Byte) (s : State) : (pushEventAt t c f d s).host.out = s.host.out := by
    unfold pushEventAt; simp only []; repeat' split
    all_goals simp
@[simp] theorem pushEventAt_host_acks (t : TB) (c : Half) (f : Bool) (d : List Byte) (s : State) : (pushEventAt t c f d s).host.acks = s.host.acks := by
    unfold pushEventAt; simp only []; repeat' split
    all_goals simp
@[simp] theorem pushEventAt_mbox_ready (t : TB) (c : Half) (f : Bool) (d : List Byte) (s : State) : (pushEventAt t c f d s).mbox.ready = s.mbox.ready := by
    unfold pushEventAt; simp only []; repeat' split
    all_goals simp
@[simp] theorem pushEventAt_mbox_q0mem (t : TB) (c : Half) (f : Bool) (d : List Byte) (s : State) : (pushEventAt t c f d s).mbox.q0mem = s.mbox.q0mem := by
    unfold pushEventAt; simp only []; repeat' split
    all_goals simp
@[simp] theorem pushEventAt_mbox_q0By (t : TB) (c : Half) (f : Bool) (d : List Byte) (s : State) : (pushEventAt t c f d s).mbox.q0By = s.mbox.q0By := by
    unfold pushEventAt; simp only []; repeat' split
    all_goals simp
@[simp] theorem pushEventAt_mbox_long (t : TB) (c : Half) (f : Bool) (d : List Byte) (s : State) : (pushEventAt t c f d s).mbox.long = s.mbox.long := by
    unfold pushEventAt; simp only []; repeat' split
    all_goals simp
@[simp] theorem pushEventAt_mbox_tlmSeq (t : TB) (c : Half) (f : Bool) (d : List Byte) (s : State) : (pushEventAt t c f d s).mbox.tlmSeq = s.mbox.tlmSeq := by
    unfold pushEventAt; simp only []; repeat' split
    all_goals simp
@[simp] theorem pushEventAt_mbox_tlmLost (t : TB) (c : Half) (f : Bool) (d : List Byte) (s : State) : (pushEventAt t c f d s).mbox.tlmLost = s.mbox.tlmLost := by
    unfold pushEventAt; simp only []; repeat' split
    all_goals simp
@[simp] theorem pushEventAt_mbox_tlmNow (t : TB) (c : Half) (f : Bool) (d : List Byte) (s : State) : (pushEventAt t c f d s).mbox.tlmNow = s.mbox.tlmNow := by
    unfold pushEventAt; simp only []; repeat' split
    all_goals simp
@[simp] theorem pushEventAt_mbox_tlmDone (t : TB) (c : Half) (f : Bool) (d : List Byte) (s : State) : (pushEventAt t c f d s).mbox.tlmDone = s.mbox.tlmDone := by
    unfold pushEventAt; simp only []; repeat' split
    all_goals simp
@[simp] theorem pushEventAt_mbox_resetDue (t : TB) (c : Half) (f : Bool) (d : List Byte) (s : State) : (pushEventAt t c f d s).mbox.resetDue = s.mbox.resetDue := by
    unfold pushEventAt; simp only []; repeat' split
    all_goals simp
@[simp] theorem pushEventAt_mbox_restartDue (t : TB) (c : Half) (f : Bool) (d : List Byte) (s : State) : (pushEventAt t c f d s).mbox.restartDue = s.mbox.restartDue := by
    unfold pushEventAt; simp only []; repeat' split
    all_goals simp
@[simp] theorem pushEventAt_mbox_shipDue (t : TB) (c : Half) (f : Bool) (d : List Byte) (s : State) : (pushEventAt t c f d s).mbox.shipDue = s.mbox.shipDue := by
    unfold pushEventAt; simp only []; repeat' split
    all_goals simp
@[simp] theorem pushEventAt_mbox_stage (t : TB) (c : Half) (f : Bool) (d : List Byte) (s : State) : (pushEventAt t c f d s).mbox.stage = s.mbox.stage := by
    unfold pushEventAt; simp only []; repeat' split
    all_goals simp
@[simp] theorem pushEventAt_mbox_stageLen (t : TB) (c : Half) (f : Bool) (d : List Byte) (s : State) : (pushEventAt t c f d s).mbox.stageLen = s.mbox.stageLen := by
    unfold pushEventAt; simp only []; repeat' split
    all_goals simp
@[simp] theorem pushEventAt_mbox_patch (t : TB) (c : Half) (f : Bool) (d : List Byte) (s : State) : (pushEventAt t c f d s).mbox.patch = s.mbox.patch := by
    unfold pushEventAt; simp only []; repeat' split
    all_goals simp
@[simp] theorem pushEventAt_mbox_patchLen (t : TB) (c : Half) (f : Bool) (d : List Byte) (s : State) : (pushEventAt t c f d s).mbox.patchLen = s.mbox.patchLen := by
    unfold pushEventAt; simp only []; repeat' split
    all_goals simp
@[simp] theorem pushEventAt_mbox_patched (t : TB) (c : Half) (f : Bool) (d : List Byte) (s : State) : (pushEventAt t c f d s).mbox.patched = s.mbox.patched := by
    unfold pushEventAt; simp only []; repeat' split
    all_goals simp
@[simp] theorem pushEventAt_mbox_patchDig (t : TB) (c : Half) (f : Bool) (d : List Byte) (s : State) : (pushEventAt t c f d s).mbox.patchDig = s.mbox.patchDig := by
    unfold pushEventAt; simp only []; repeat' split
    all_goals simp
@[simp] theorem pushEventAt_mbox_patchDue (t : TB) (c : Half) (f : Bool) (d : List Byte) (s : State) : (pushEventAt t c f d s).mbox.patchDue = s.mbox.patchDue := by
    unfold pushEventAt; simp only []; repeat' split
    all_goals simp
@[simp] theorem pushEventAt_mbox_restarted (t : TB) (c : Half) (f : Bool) (d : List Byte) (s : State) : (pushEventAt t c f d s).mbox.restarted = s.mbox.restarted := by
    unfold pushEventAt; simp only []; repeat' split
    all_goals simp
@[simp] theorem pushEventAt_par (t : TB) (c : Half) (f : Bool) (d : List Byte) (s : State) : (pushEventAt t c f d s).par = s.par := by
    unfold pushEventAt; simp only []; repeat' split
    all_goals simp
@[simp] theorem pushEventAt_otp (t : TB) (c : Half) (f : Bool) (d : List Byte) (s : State) : (pushEventAt t c f d s).otp = s.otp := by
    unfold pushEventAt; simp only []; repeat' split
    all_goals simp
@[simp] theorem pushEventAt_snap (t : TB) (c : Half) (f : Bool) (d : List Byte) (s : State) : (pushEventAt t c f d s).snap = s.snap := by
    unfold pushEventAt; simp only []; repeat' split
    all_goals simp
@[simp] theorem pushEventAt_stby (t : TB) (c : Half) (f : Bool) (d : List Byte) (s : State) : (pushEventAt t c f d s).stby = s.stby := by
    unfold pushEventAt; simp only []; repeat' split
    all_goals simp
@[simp] theorem pushEventAt_sbus (t : TB) (c : Half) (f : Bool) (d : List Byte) (s : State) : (pushEventAt t c f d s).sbus = s.sbus := by
    unfold pushEventAt; simp only []; repeat' split
    all_goals simp

/-! ### pushEvent -/

@[simp] theorem pushEvent_pending (c : Half) (d : List Byte) (s : State) : (pushEvent c d s).pending = s.pending := by simp [pushEvent]
@[simp] theorem pushEvent_dev (c : Half) (d : List Byte) (s : State) : (pushEvent c d s).dev = s.dev := by simp [pushEvent]
@[simp] theorem pushEvent_boot (c : Half) (d : List Byte) (s : State) : (pushEvent c d s).boot = s.boot := by simp [pushEvent]
@[simp] theorem pushEvent_aon (c : Half) (d : List Byte) (s : State) : (pushEvent c d s).aon = s.aon := by simp [pushEvent]
@[simp] theorem pushEvent_clk (c : Half) (d : List Byte) (s : State) : (pushEvent c d s).clk = s.clk := by simp [pushEvent]
@[simp] theorem pushEvent_wires (c : Half) (d : List Byte) (s : State) : (pushEvent c d s).wires = s.wires := by simp [pushEvent]
@[simp] theorem pushEvent_tb (c : Half) (d : List Byte) (s : State) : (pushEvent c d s).tb = s.tb := by simp [pushEvent]
@[simp] theorem pushEvent_tbRuns (c : Half) (d : List Byte) (s : State) : (pushEvent c d s).tbRuns = s.tbRuns := by simp [pushEvent]
@[simp] theorem pushEvent_lastFrame (c : Half) (d : List Byte) (s : State) : (pushEvent c d s).lastFrame = s.lastFrame := by simp [pushEvent]
@[simp] theorem pushEvent_free (c : Half) (d : List Byte) (s : State) : (pushEvent c d s).free = s.free := by simp [pushEvent]
@[simp] theorem pushEvent_ride (c : Half) (d : List Byte) (s : State) : (pushEvent c d s).ride = s.ride := by simp [pushEvent]
@[simp] theorem pushEvent_tap (c : Half) (d : List Byte) (s : State) : (pushEvent c d s).tap = s.tap := by simp [pushEvent]
@[simp] theorem pushEvent_chan (c : Half) (d : List Byte) (s : State) : (pushEvent c d s).chan = s.chan := by simp [pushEvent]
@[simp] theorem pushEvent_phase (c : Half) (d : List Byte) (s : State) : (pushEvent c d s).phase = s.phase := by simp [pushEvent]
@[simp] theorem pushEvent_src (c : Half) (d : List Byte) (s : State) : (pushEvent c d s).src = s.src := by simp [pushEvent]
@[simp] theorem pushEvent_bat (c : Half) (d : List Byte) (s : State) : (pushEvent c d s).bat = s.bat := by simp [pushEvent]
@[simp] theorem pushEvent_usb (c : Half) (d : List Byte) (s : State) : (pushEvent c d s).usb = s.usb := by simp [pushEvent]
@[simp] theorem pushEvent_load (c : Half) (d : List Byte) (s : State) : (pushEvent c d s).load = s.load := by simp [pushEvent]
@[simp] theorem pushEvent_vcc (c : Half) (d : List Byte) (s : State) : (pushEvent c d s).vcc = s.vcc := by simp [pushEvent]
@[simp] theorem pushEvent_vdrv (c : Half) (d : List Byte) (s : State) : (pushEvent c d s).vdrv = s.vdrv := by simp [pushEvent]
@[simp] theorem pushEvent_sapling (c : Half) (d : List Byte) (s : State) : (pushEvent c d s).sapling = s.sapling := by simp [pushEvent]
@[simp] theorem pushEvent_group (c : Half) (d : List Byte) (s : State) : (pushEvent c d s).group = s.group := by simp [pushEvent]
@[simp] theorem pushEvent_conv (c : Half) (d : List Byte) (s : State) : (pushEvent c d s).conv = s.conv := by simp [pushEvent]
@[simp] theorem pushEvent_therm (c : Half) (d : List Byte) (s : State) : (pushEvent c d s).therm = s.therm := by simp [pushEvent]
@[simp] theorem pushEvent_eng (c : Half) (d : List Byte) (s : State) : (pushEvent c d s).eng = s.eng := by simp [pushEvent]
@[simp] theorem pushEvent_fc (c : Half) (d : List Byte) (s : State) : (pushEvent c d s).fc = s.fc := by simp [pushEvent]
@[simp] theorem pushEvent_warden_alive (c : Half) (d : List Byte) (s : State) : (pushEvent c d s).warden.alive = s.warden.alive := by simp [pushEvent]
@[simp] theorem pushEvent_warden_standing (c : Half) (d : List Byte) (s : State) : (pushEvent c d s).warden.standing = s.warden.standing := by simp [pushEvent]
@[simp] theorem pushEvent_warden_nextId (c : Half) (d : List Byte) (s : State) : (pushEvent c d s).warden.nextId = s.warden.nextId := by simp [pushEvent]
@[simp] theorem pushEvent_warden_listFull (c : Half) (d : List Byte) (s : State) : (pushEvent c d s).warden.listFull = s.warden.listFull := by simp [pushEvent]
@[simp] theorem pushEvent_warden_unrecorded (c : Half) (d : List Byte) (s : State) : (pushEvent c d s).warden.unrecorded = s.warden.unrecorded := by simp [pushEvent]
@[simp] theorem pushEvent_warden_restarts (c : Half) (d : List Byte) (s : State) : (pushEvent c d s).warden.restarts = s.warden.restarts := by simp [pushEvent]
@[simp] theorem pushEvent_warden_restartDue (c : Half) (d : List Byte) (s : State) : (pushEvent c d s).warden.restartDue = s.warden.restartDue := by simp [pushEvent]
@[simp] theorem pushEvent_warden_keys (c : Half) (d : List Byte) (s : State) : (pushEvent c d s).warden.keys = s.warden.keys := by simp [pushEvent]
@[simp] theorem pushEvent_warden_devStopRep (c : Half) (d : List Byte) (s : State) : (pushEvent c d s).warden.devStopRep = s.warden.devStopRep := by simp [pushEvent]
@[simp] theorem pushEvent_host_released (c : Half) (d : List Byte) (s : State) : (pushEvent c d s).host.released = s.host.released := by simp [pushEvent]
@[simp] theorem pushEvent_host_haddr (c : Half) (d : List Byte) (s : State) : (pushEvent c d s).host.haddr = s.host.haddr := by simp [pushEvent]
@[simp] theorem pushEvent_host_pointer (c : Half) (d : List Byte) (s : State) : (pushEvent c d s).host.pointer = s.host.pointer := by simp [pushEvent]
@[simp] theorem pushEvent_host_frameErr (c : Half) (d : List Byte) (s : State) : (pushEvent c d s).host.frameErr = s.host.frameErr := by simp [pushEvent]
@[simp] theorem pushEvent_host_busErr (c : Half) (d : List Byte) (s : State) : (pushEvent c d s).host.busErr = s.host.busErr := by simp [pushEvent]
@[simp] theorem pushEvent_host_hostErr (c : Half) (d : List Byte) (s : State) : (pushEvent c d s).host.hostErr = s.host.hostErr := by simp [pushEvent]
@[simp] theorem pushEvent_host_spiErr (c : Half) (d : List Byte) (s : State) : (pushEvent c d s).host.spiErr = s.host.spiErr := by simp [pushEvent]
@[simp] theorem pushEvent_host_hbusErr (c : Half) (d : List Byte) (s : State) : (pushEvent c d s).host.hbusErr = s.host.hbusErr := by simp [pushEvent]
@[simp] theorem pushEvent_host_spiProto (c : Half) (d : List Byte) (s : State) : (pushEvent c d s).host.spiProto = s.host.spiProto := by simp [pushEvent]
@[simp] theorem pushEvent_host_hbusProto (c : Half) (d : List Byte) (s : State) : (pushEvent c d s).host.hbusProto = s.host.hbusProto := by simp [pushEvent]
@[simp] theorem pushEvent_host_tbHiSpi (c : Half) (d : List Byte) (s : State) : (pushEvent c d s).host.tbHiSpi = s.host.tbHiSpi := by simp [pushEvent]
@[simp] theorem pushEvent_host_tbHiHbus (c : Half) (d : List Byte) (s : State) : (pushEvent c d s).host.tbHiHbus = s.host.tbHiHbus := by simp [pushEvent]
@[simp] theorem pushEvent_host_feHiSpi (c : Half) (d : List Byte) (s : State) : (pushEvent c d s).host.feHiSpi = s.host.feHiSpi := by simp [pushEvent]
@[simp] theorem pushEvent_host_feHiHbus (c : Half) (d : List Byte) (s : State) : (pushEvent c d s).host.feHiHbus = s.host.feHiHbus := by simp [pushEvent]
@[simp] theorem pushEvent_host_scratch (c : Half) (d : List Byte) (s : State) : (pushEvent c d s).host.scratch = s.host.scratch := by simp [pushEvent]
@[simp] theorem pushEvent_host_irqEn (c : Half) (d : List Byte) (s : State) : (pushEvent c d s).host.irqEn = s.host.irqEn := by simp [pushEvent]
@[simp] theorem pushEvent_host_alertEn (c : Half) (d : List Byte) (s : State) : (pushEvent c d s).host.alertEn = s.host.alertEn := by simp [pushEvent]
@[simp] theorem pushEvent_host_irqDue (c : Half) (d : List Byte) (s : State) : (pushEvent c d s).host.irqDue = s.host.irqDue := by simp [pushEvent]
@[simp] theorem pushEvent_host_alertDue (c : Half) (d : List Byte) (s : State) : (pushEvent c d s).host.alertDue = s.host.alertDue := by simp [pushEvent]
@[simp] theorem pushEvent_host_out (c : Half) (d : List Byte) (s : State) : (pushEvent c d s).host.out = s.host.out := by simp [pushEvent]
@[simp] theorem pushEvent_host_acks (c : Half) (d : List Byte) (s : State) : (pushEvent c d s).host.acks = s.host.acks := by simp [pushEvent]
@[simp] theorem pushEvent_mbox_ready (c : Half) (d : List Byte) (s : State) : (pushEvent c d s).mbox.ready = s.mbox.ready := by simp [pushEvent]
@[simp] theorem pushEvent_mbox_q0mem (c : Half) (d : List Byte) (s : State) : (pushEvent c d s).mbox.q0mem = s.mbox.q0mem := by simp [pushEvent]
@[simp] theorem pushEvent_mbox_q0By (c : Half) (d : List Byte) (s : State) : (pushEvent c d s).mbox.q0By = s.mbox.q0By := by simp [pushEvent]
@[simp] theorem pushEvent_mbox_long (c : Half) (d : List Byte) (s : State) : (pushEvent c d s).mbox.long = s.mbox.long := by simp [pushEvent]
@[simp] theorem pushEvent_mbox_tlmSeq (c : Half) (d : List Byte) (s : State) : (pushEvent c d s).mbox.tlmSeq = s.mbox.tlmSeq := by simp [pushEvent]
@[simp] theorem pushEvent_mbox_tlmLost (c : Half) (d : List Byte) (s : State) : (pushEvent c d s).mbox.tlmLost = s.mbox.tlmLost := by simp [pushEvent]
@[simp] theorem pushEvent_mbox_tlmNow (c : Half) (d : List Byte) (s : State) : (pushEvent c d s).mbox.tlmNow = s.mbox.tlmNow := by simp [pushEvent]
@[simp] theorem pushEvent_mbox_tlmDone (c : Half) (d : List Byte) (s : State) : (pushEvent c d s).mbox.tlmDone = s.mbox.tlmDone := by simp [pushEvent]
@[simp] theorem pushEvent_mbox_resetDue (c : Half) (d : List Byte) (s : State) : (pushEvent c d s).mbox.resetDue = s.mbox.resetDue := by simp [pushEvent]
@[simp] theorem pushEvent_mbox_restartDue (c : Half) (d : List Byte) (s : State) : (pushEvent c d s).mbox.restartDue = s.mbox.restartDue := by simp [pushEvent]
@[simp] theorem pushEvent_mbox_shipDue (c : Half) (d : List Byte) (s : State) : (pushEvent c d s).mbox.shipDue = s.mbox.shipDue := by simp [pushEvent]
@[simp] theorem pushEvent_mbox_stage (c : Half) (d : List Byte) (s : State) : (pushEvent c d s).mbox.stage = s.mbox.stage := by simp [pushEvent]
@[simp] theorem pushEvent_mbox_stageLen (c : Half) (d : List Byte) (s : State) : (pushEvent c d s).mbox.stageLen = s.mbox.stageLen := by simp [pushEvent]
@[simp] theorem pushEvent_mbox_patch (c : Half) (d : List Byte) (s : State) : (pushEvent c d s).mbox.patch = s.mbox.patch := by simp [pushEvent]
@[simp] theorem pushEvent_mbox_patchLen (c : Half) (d : List Byte) (s : State) : (pushEvent c d s).mbox.patchLen = s.mbox.patchLen := by simp [pushEvent]
@[simp] theorem pushEvent_mbox_patched (c : Half) (d : List Byte) (s : State) : (pushEvent c d s).mbox.patched = s.mbox.patched := by simp [pushEvent]
@[simp] theorem pushEvent_mbox_patchDig (c : Half) (d : List Byte) (s : State) : (pushEvent c d s).mbox.patchDig = s.mbox.patchDig := by simp [pushEvent]
@[simp] theorem pushEvent_mbox_patchDue (c : Half) (d : List Byte) (s : State) : (pushEvent c d s).mbox.patchDue = s.mbox.patchDue := by simp [pushEvent]
@[simp] theorem pushEvent_mbox_restarted (c : Half) (d : List Byte) (s : State) : (pushEvent c d s).mbox.restarted = s.mbox.restarted := by simp [pushEvent]
@[simp] theorem pushEvent_par (c : Half) (d : List Byte) (s : State) : (pushEvent c d s).par = s.par := by simp [pushEvent]
@[simp] theorem pushEvent_otp (c : Half) (d : List Byte) (s : State) : (pushEvent c d s).otp = s.otp := by simp [pushEvent]
@[simp] theorem pushEvent_snap (c : Half) (d : List Byte) (s : State) : (pushEvent c d s).snap = s.snap := by simp [pushEvent]
@[simp] theorem pushEvent_stby (c : Half) (d : List Byte) (s : State) : (pushEvent c d s).stby = s.stby := by simp [pushEvent]
@[simp] theorem pushEvent_sbus (c : Half) (d : List Byte) (s : State) : (pushEvent c d s).sbus = s.sbus := by simp [pushEvent]

/-! ### satEvent -/

@[simp] theorem satEvent_pending (c : Half) (p k n : Nat) (h : Bool) (s : State) : (satEvent c p k n h s).pending = s.pending := by unfold satEvent; split <;> simp
@[simp] theorem satEvent_dev (c : Half) (p k n : Nat) (h : Bool) (s : State) : (satEvent c p k n h s).dev = s.dev := by unfold satEvent; split <;> simp
@[simp] theorem satEvent_boot (c : Half) (p k n : Nat) (h : Bool) (s : State) : (satEvent c p k n h s).boot = s.boot := by unfold satEvent; split <;> simp
@[simp] theorem satEvent_aon (c : Half) (p k n : Nat) (h : Bool) (s : State) : (satEvent c p k n h s).aon = s.aon := by unfold satEvent; split <;> simp
@[simp] theorem satEvent_clk (c : Half) (p k n : Nat) (h : Bool) (s : State) : (satEvent c p k n h s).clk = s.clk := by unfold satEvent; split <;> simp
@[simp] theorem satEvent_wires (c : Half) (p k n : Nat) (h : Bool) (s : State) : (satEvent c p k n h s).wires = s.wires := by unfold satEvent; split <;> simp
@[simp] theorem satEvent_tb (c : Half) (p k n : Nat) (h : Bool) (s : State) : (satEvent c p k n h s).tb = s.tb := by unfold satEvent; split <;> simp
@[simp] theorem satEvent_tbRuns (c : Half) (p k n : Nat) (h : Bool) (s : State) : (satEvent c p k n h s).tbRuns = s.tbRuns := by unfold satEvent; split <;> simp
@[simp] theorem satEvent_lastFrame (c : Half) (p k n : Nat) (h : Bool) (s : State) : (satEvent c p k n h s).lastFrame = s.lastFrame := by unfold satEvent; split <;> simp
@[simp] theorem satEvent_free (c : Half) (p k n : Nat) (h : Bool) (s : State) : (satEvent c p k n h s).free = s.free := by unfold satEvent; split <;> simp
@[simp] theorem satEvent_ride (c : Half) (p k n : Nat) (h : Bool) (s : State) : (satEvent c p k n h s).ride = s.ride := by unfold satEvent; split <;> simp
@[simp] theorem satEvent_tap (c : Half) (p k n : Nat) (h : Bool) (s : State) : (satEvent c p k n h s).tap = s.tap := by unfold satEvent; split <;> simp
@[simp] theorem satEvent_chan (c : Half) (p k n : Nat) (h : Bool) (s : State) : (satEvent c p k n h s).chan = s.chan := by unfold satEvent; split <;> simp
@[simp] theorem satEvent_phase (c : Half) (p k n : Nat) (h : Bool) (s : State) : (satEvent c p k n h s).phase = s.phase := by unfold satEvent; split <;> simp
@[simp] theorem satEvent_src (c : Half) (p k n : Nat) (h : Bool) (s : State) : (satEvent c p k n h s).src = s.src := by unfold satEvent; split <;> simp
@[simp] theorem satEvent_bat (c : Half) (p k n : Nat) (h : Bool) (s : State) : (satEvent c p k n h s).bat = s.bat := by unfold satEvent; split <;> simp
@[simp] theorem satEvent_usb (c : Half) (p k n : Nat) (h : Bool) (s : State) : (satEvent c p k n h s).usb = s.usb := by unfold satEvent; split <;> simp
@[simp] theorem satEvent_load (c : Half) (p k n : Nat) (h : Bool) (s : State) : (satEvent c p k n h s).load = s.load := by unfold satEvent; split <;> simp
@[simp] theorem satEvent_vcc (c : Half) (p k n : Nat) (h : Bool) (s : State) : (satEvent c p k n h s).vcc = s.vcc := by unfold satEvent; split <;> simp
@[simp] theorem satEvent_vdrv (c : Half) (p k n : Nat) (h : Bool) (s : State) : (satEvent c p k n h s).vdrv = s.vdrv := by unfold satEvent; split <;> simp
@[simp] theorem satEvent_sapling (c : Half) (p k n : Nat) (h : Bool) (s : State) : (satEvent c p k n h s).sapling = s.sapling := by unfold satEvent; split <;> simp
@[simp] theorem satEvent_group (c : Half) (p k n : Nat) (h : Bool) (s : State) : (satEvent c p k n h s).group = s.group := by unfold satEvent; split <;> simp
@[simp] theorem satEvent_conv (c : Half) (p k n : Nat) (h : Bool) (s : State) : (satEvent c p k n h s).conv = s.conv := by unfold satEvent; split <;> simp
@[simp] theorem satEvent_therm (c : Half) (p k n : Nat) (h : Bool) (s : State) : (satEvent c p k n h s).therm = s.therm := by unfold satEvent; split <;> simp
@[simp] theorem satEvent_eng (c : Half) (p k n : Nat) (h : Bool) (s : State) : (satEvent c p k n h s).eng = s.eng := by unfold satEvent; split <;> simp
@[simp] theorem satEvent_fc (c : Half) (p k n : Nat) (h : Bool) (s : State) : (satEvent c p k n h s).fc = s.fc := by unfold satEvent; split <;> simp
@[simp] theorem satEvent_warden_alive (c : Half) (p k n : Nat) (h : Bool) (s : State) : (satEvent c p k n h s).warden.alive = s.warden.alive := by unfold satEvent; split <;> simp
@[simp] theorem satEvent_warden_standing (c : Half) (p k n : Nat) (h : Bool) (s : State) : (satEvent c p k n h s).warden.standing = s.warden.standing := by unfold satEvent; split <;> simp
@[simp] theorem satEvent_warden_nextId (c : Half) (p k n : Nat) (h : Bool) (s : State) : (satEvent c p k n h s).warden.nextId = s.warden.nextId := by unfold satEvent; split <;> simp
@[simp] theorem satEvent_warden_listFull (c : Half) (p k n : Nat) (h : Bool) (s : State) : (satEvent c p k n h s).warden.listFull = s.warden.listFull := by unfold satEvent; split <;> simp
@[simp] theorem satEvent_warden_unrecorded (c : Half) (p k n : Nat) (h : Bool) (s : State) : (satEvent c p k n h s).warden.unrecorded = s.warden.unrecorded := by unfold satEvent; split <;> simp
@[simp] theorem satEvent_warden_restarts (c : Half) (p k n : Nat) (h : Bool) (s : State) : (satEvent c p k n h s).warden.restarts = s.warden.restarts := by unfold satEvent; split <;> simp
@[simp] theorem satEvent_warden_restartDue (c : Half) (p k n : Nat) (h : Bool) (s : State) : (satEvent c p k n h s).warden.restartDue = s.warden.restartDue := by unfold satEvent; split <;> simp
@[simp] theorem satEvent_warden_keys (c : Half) (p k n : Nat) (h : Bool) (s : State) : (satEvent c p k n h s).warden.keys = s.warden.keys := by unfold satEvent; split <;> simp
@[simp] theorem satEvent_warden_devStopRep (c : Half) (p k n : Nat) (h : Bool) (s : State) : (satEvent c p k n h s).warden.devStopRep = s.warden.devStopRep := by unfold satEvent; split <;> simp
@[simp] theorem satEvent_host_released (c : Half) (p k n : Nat) (h : Bool) (s : State) : (satEvent c p k n h s).host.released = s.host.released := by unfold satEvent; split <;> simp
@[simp] theorem satEvent_host_haddr (c : Half) (p k n : Nat) (h : Bool) (s : State) : (satEvent c p k n h s).host.haddr = s.host.haddr := by unfold satEvent; split <;> simp
@[simp] theorem satEvent_host_pointer (c : Half) (p k n : Nat) (h : Bool) (s : State) : (satEvent c p k n h s).host.pointer = s.host.pointer := by unfold satEvent; split <;> simp
@[simp] theorem satEvent_host_frameErr (c : Half) (p k n : Nat) (h : Bool) (s : State) : (satEvent c p k n h s).host.frameErr = s.host.frameErr := by unfold satEvent; split <;> simp
@[simp] theorem satEvent_host_busErr (c : Half) (p k n : Nat) (h : Bool) (s : State) : (satEvent c p k n h s).host.busErr = s.host.busErr := by unfold satEvent; split <;> simp
@[simp] theorem satEvent_host_hostErr (c : Half) (p k n : Nat) (h : Bool) (s : State) : (satEvent c p k n h s).host.hostErr = s.host.hostErr := by unfold satEvent; split <;> simp
@[simp] theorem satEvent_host_spiErr (c : Half) (p k n : Nat) (h : Bool) (s : State) : (satEvent c p k n h s).host.spiErr = s.host.spiErr := by unfold satEvent; split <;> simp
@[simp] theorem satEvent_host_hbusErr (c : Half) (p k n : Nat) (h : Bool) (s : State) : (satEvent c p k n h s).host.hbusErr = s.host.hbusErr := by unfold satEvent; split <;> simp
@[simp] theorem satEvent_host_spiProto (c : Half) (p k n : Nat) (h : Bool) (s : State) : (satEvent c p k n h s).host.spiProto = s.host.spiProto := by unfold satEvent; split <;> simp
@[simp] theorem satEvent_host_hbusProto (c : Half) (p k n : Nat) (h : Bool) (s : State) : (satEvent c p k n h s).host.hbusProto = s.host.hbusProto := by unfold satEvent; split <;> simp
@[simp] theorem satEvent_host_tbHiSpi (c : Half) (p k n : Nat) (h : Bool) (s : State) : (satEvent c p k n h s).host.tbHiSpi = s.host.tbHiSpi := by unfold satEvent; split <;> simp
@[simp] theorem satEvent_host_tbHiHbus (c : Half) (p k n : Nat) (h : Bool) (s : State) : (satEvent c p k n h s).host.tbHiHbus = s.host.tbHiHbus := by unfold satEvent; split <;> simp
@[simp] theorem satEvent_host_feHiSpi (c : Half) (p k n : Nat) (h : Bool) (s : State) : (satEvent c p k n h s).host.feHiSpi = s.host.feHiSpi := by unfold satEvent; split <;> simp
@[simp] theorem satEvent_host_feHiHbus (c : Half) (p k n : Nat) (h : Bool) (s : State) : (satEvent c p k n h s).host.feHiHbus = s.host.feHiHbus := by unfold satEvent; split <;> simp
@[simp] theorem satEvent_host_scratch (c : Half) (p k n : Nat) (h : Bool) (s : State) : (satEvent c p k n h s).host.scratch = s.host.scratch := by unfold satEvent; split <;> simp
@[simp] theorem satEvent_host_irqEn (c : Half) (p k n : Nat) (h : Bool) (s : State) : (satEvent c p k n h s).host.irqEn = s.host.irqEn := by unfold satEvent; split <;> simp
@[simp] theorem satEvent_host_alertEn (c : Half) (p k n : Nat) (h : Bool) (s : State) : (satEvent c p k n h s).host.alertEn = s.host.alertEn := by unfold satEvent; split <;> simp
@[simp] theorem satEvent_host_irqDue (c : Half) (p k n : Nat) (h : Bool) (s : State) : (satEvent c p k n h s).host.irqDue = s.host.irqDue := by unfold satEvent; split <;> simp
@[simp] theorem satEvent_host_alertDue (c : Half) (p k n : Nat) (h : Bool) (s : State) : (satEvent c p k n h s).host.alertDue = s.host.alertDue := by unfold satEvent; split <;> simp
@[simp] theorem satEvent_host_out (c : Half) (p k n : Nat) (h : Bool) (s : State) : (satEvent c p k n h s).host.out = s.host.out := by unfold satEvent; split <;> simp
@[simp] theorem satEvent_host_acks (c : Half) (p k n : Nat) (h : Bool) (s : State) : (satEvent c p k n h s).host.acks = s.host.acks := by unfold satEvent; split <;> simp
@[simp] theorem satEvent_mbox_ready (c : Half) (p k n : Nat) (h : Bool) (s : State) : (satEvent c p k n h s).mbox.ready = s.mbox.ready := by unfold satEvent; split <;> simp
@[simp] theorem satEvent_mbox_q0mem (c : Half) (p k n : Nat) (h : Bool) (s : State) : (satEvent c p k n h s).mbox.q0mem = s.mbox.q0mem := by unfold satEvent; split <;> simp
@[simp] theorem satEvent_mbox_q0By (c : Half) (p k n : Nat) (h : Bool) (s : State) : (satEvent c p k n h s).mbox.q0By = s.mbox.q0By := by unfold satEvent; split <;> simp
@[simp] theorem satEvent_mbox_long (c : Half) (p k n : Nat) (h : Bool) (s : State) : (satEvent c p k n h s).mbox.long = s.mbox.long := by unfold satEvent; split <;> simp
@[simp] theorem satEvent_mbox_tlmSeq (c : Half) (p k n : Nat) (h : Bool) (s : State) : (satEvent c p k n h s).mbox.tlmSeq = s.mbox.tlmSeq := by unfold satEvent; split <;> simp
@[simp] theorem satEvent_mbox_tlmLost (c : Half) (p k n : Nat) (h : Bool) (s : State) : (satEvent c p k n h s).mbox.tlmLost = s.mbox.tlmLost := by unfold satEvent; split <;> simp
@[simp] theorem satEvent_mbox_tlmNow (c : Half) (p k n : Nat) (h : Bool) (s : State) : (satEvent c p k n h s).mbox.tlmNow = s.mbox.tlmNow := by unfold satEvent; split <;> simp
@[simp] theorem satEvent_mbox_tlmDone (c : Half) (p k n : Nat) (h : Bool) (s : State) : (satEvent c p k n h s).mbox.tlmDone = s.mbox.tlmDone := by unfold satEvent; split <;> simp
@[simp] theorem satEvent_mbox_resetDue (c : Half) (p k n : Nat) (h : Bool) (s : State) : (satEvent c p k n h s).mbox.resetDue = s.mbox.resetDue := by unfold satEvent; split <;> simp
@[simp] theorem satEvent_mbox_restartDue (c : Half) (p k n : Nat) (h : Bool) (s : State) : (satEvent c p k n h s).mbox.restartDue = s.mbox.restartDue := by unfold satEvent; split <;> simp
@[simp] theorem satEvent_mbox_shipDue (c : Half) (p k n : Nat) (h : Bool) (s : State) : (satEvent c p k n h s).mbox.shipDue = s.mbox.shipDue := by unfold satEvent; split <;> simp
@[simp] theorem satEvent_mbox_stage (c : Half) (p k n : Nat) (h : Bool) (s : State) : (satEvent c p k n h s).mbox.stage = s.mbox.stage := by unfold satEvent; split <;> simp
@[simp] theorem satEvent_mbox_stageLen (c : Half) (p k n : Nat) (h : Bool) (s : State) : (satEvent c p k n h s).mbox.stageLen = s.mbox.stageLen := by unfold satEvent; split <;> simp
@[simp] theorem satEvent_mbox_patch (c : Half) (p k n : Nat) (h : Bool) (s : State) : (satEvent c p k n h s).mbox.patch = s.mbox.patch := by unfold satEvent; split <;> simp
@[simp] theorem satEvent_mbox_patchLen (c : Half) (p k n : Nat) (h : Bool) (s : State) : (satEvent c p k n h s).mbox.patchLen = s.mbox.patchLen := by unfold satEvent; split <;> simp
@[simp] theorem satEvent_mbox_patched (c : Half) (p k n : Nat) (h : Bool) (s : State) : (satEvent c p k n h s).mbox.patched = s.mbox.patched := by unfold satEvent; split <;> simp
@[simp] theorem satEvent_mbox_patchDig (c : Half) (p k n : Nat) (h : Bool) (s : State) : (satEvent c p k n h s).mbox.patchDig = s.mbox.patchDig := by unfold satEvent; split <;> simp
@[simp] theorem satEvent_mbox_patchDue (c : Half) (p k n : Nat) (h : Bool) (s : State) : (satEvent c p k n h s).mbox.patchDue = s.mbox.patchDue := by unfold satEvent; split <;> simp
@[simp] theorem satEvent_mbox_restarted (c : Half) (p k n : Nat) (h : Bool) (s : State) : (satEvent c p k n h s).mbox.restarted = s.mbox.restarted := by unfold satEvent; split <;> simp
@[simp] theorem satEvent_par (c : Half) (p k n : Nat) (h : Bool) (s : State) : (satEvent c p k n h s).par = s.par := by unfold satEvent; split <;> simp
@[simp] theorem satEvent_otp (c : Half) (p k n : Nat) (h : Bool) (s : State) : (satEvent c p k n h s).otp = s.otp := by unfold satEvent; split <;> simp
@[simp] theorem satEvent_snap (c : Half) (p k n : Nat) (h : Bool) (s : State) : (satEvent c p k n h s).snap = s.snap := by unfold satEvent; split <;> simp
@[simp] theorem satEvent_stby (c : Half) (p k n : Nat) (h : Bool) (s : State) : (satEvent c p k n h s).stby = s.stby := by unfold satEvent; split <;> simp
@[simp] theorem satEvent_sbus (c : Half) (p k n : Nat) (h : Bool) (s : State) : (satEvent c p k n h s).sbus = s.sbus := by unfold satEvent; split <;> simp

/-! ### cmdFree -/

@[simp] theorem cmdFree_pending (b : State) (s : State) : (cmdFree b s).pending = s.pending := by unfold cmdFree; split <;> simp
@[simp] theorem cmdFree_dev (b : State) (s : State) : (cmdFree b s).dev = s.dev := by unfold cmdFree; split <;> simp
@[simp] theorem cmdFree_boot (b : State) (s : State) : (cmdFree b s).boot = s.boot := by unfold cmdFree; split <;> simp
@[simp] theorem cmdFree_aon (b : State) (s : State) : (cmdFree b s).aon = s.aon := by unfold cmdFree; split <;> simp
@[simp] theorem cmdFree_clk (b : State) (s : State) : (cmdFree b s).clk = s.clk := by unfold cmdFree; split <;> simp
@[simp] theorem cmdFree_wires (b : State) (s : State) : (cmdFree b s).wires = s.wires := by unfold cmdFree; split <;> simp
@[simp] theorem cmdFree_tb (b : State) (s : State) : (cmdFree b s).tb = s.tb := by unfold cmdFree; split <;> simp
@[simp] theorem cmdFree_tbRuns (b : State) (s : State) : (cmdFree b s).tbRuns = s.tbRuns := by unfold cmdFree; split <;> simp
@[simp] theorem cmdFree_lastFrame (b : State) (s : State) : (cmdFree b s).lastFrame = s.lastFrame := by unfold cmdFree; split <;> simp
@[simp] theorem cmdFree_free (b : State) (s : State) : (cmdFree b s).free = s.free := by unfold cmdFree; split <;> simp
@[simp] theorem cmdFree_ride (b : State) (s : State) : (cmdFree b s).ride = s.ride := by unfold cmdFree; split <;> simp
@[simp] theorem cmdFree_tap (b : State) (s : State) : (cmdFree b s).tap = s.tap := by unfold cmdFree; split <;> simp
@[simp] theorem cmdFree_chan (b : State) (s : State) : (cmdFree b s).chan = s.chan := by unfold cmdFree; split <;> simp
@[simp] theorem cmdFree_phase (b : State) (s : State) : (cmdFree b s).phase = s.phase := by unfold cmdFree; split <;> simp
@[simp] theorem cmdFree_src (b : State) (s : State) : (cmdFree b s).src = s.src := by unfold cmdFree; split <;> simp
@[simp] theorem cmdFree_bat (b : State) (s : State) : (cmdFree b s).bat = s.bat := by unfold cmdFree; split <;> simp
@[simp] theorem cmdFree_usb (b : State) (s : State) : (cmdFree b s).usb = s.usb := by unfold cmdFree; split <;> simp
@[simp] theorem cmdFree_load (b : State) (s : State) : (cmdFree b s).load = s.load := by unfold cmdFree; split <;> simp
@[simp] theorem cmdFree_vcc (b : State) (s : State) : (cmdFree b s).vcc = s.vcc := by unfold cmdFree; split <;> simp
@[simp] theorem cmdFree_vdrv (b : State) (s : State) : (cmdFree b s).vdrv = s.vdrv := by unfold cmdFree; split <;> simp
@[simp] theorem cmdFree_sapling (b : State) (s : State) : (cmdFree b s).sapling = s.sapling := by unfold cmdFree; split <;> simp
@[simp] theorem cmdFree_group (b : State) (s : State) : (cmdFree b s).group = s.group := by unfold cmdFree; split <;> simp
@[simp] theorem cmdFree_conv (b : State) (s : State) : (cmdFree b s).conv = s.conv := by unfold cmdFree; split <;> simp
@[simp] theorem cmdFree_therm (b : State) (s : State) : (cmdFree b s).therm = s.therm := by unfold cmdFree; split <;> simp
@[simp] theorem cmdFree_eng (b : State) (s : State) : (cmdFree b s).eng = s.eng := by unfold cmdFree; split <;> simp
@[simp] theorem cmdFree_ring (b : State) (s : State) : (cmdFree b s).ring = s.ring := by unfold cmdFree; split <;> simp
@[simp] theorem cmdFree_fc (b : State) (s : State) : (cmdFree b s).fc = s.fc := by unfold cmdFree; split <;> simp
@[simp] theorem cmdFree_warden (b : State) (s : State) : (cmdFree b s).warden = s.warden := by unfold cmdFree; split <;> simp
@[simp] theorem cmdFree_host_released (b : State) (s : State) : (cmdFree b s).host.released = s.host.released := by unfold cmdFree; split <;> simp
@[simp] theorem cmdFree_host_haddr (b : State) (s : State) : (cmdFree b s).host.haddr = s.host.haddr := by unfold cmdFree; split <;> simp
@[simp] theorem cmdFree_host_pointer (b : State) (s : State) : (cmdFree b s).host.pointer = s.host.pointer := by unfold cmdFree; split <;> simp
@[simp] theorem cmdFree_host_frameErr (b : State) (s : State) : (cmdFree b s).host.frameErr = s.host.frameErr := by unfold cmdFree; split <;> simp
@[simp] theorem cmdFree_host_busErr (b : State) (s : State) : (cmdFree b s).host.busErr = s.host.busErr := by unfold cmdFree; split <;> simp
@[simp] theorem cmdFree_host_hostErr (b : State) (s : State) : (cmdFree b s).host.hostErr = s.host.hostErr := by unfold cmdFree; split <;> simp
@[simp] theorem cmdFree_host_spiErr (b : State) (s : State) : (cmdFree b s).host.spiErr = s.host.spiErr := by unfold cmdFree; split <;> simp
@[simp] theorem cmdFree_host_hbusErr (b : State) (s : State) : (cmdFree b s).host.hbusErr = s.host.hbusErr := by unfold cmdFree; split <;> simp
@[simp] theorem cmdFree_host_spiProto (b : State) (s : State) : (cmdFree b s).host.spiProto = s.host.spiProto := by unfold cmdFree; split <;> simp
@[simp] theorem cmdFree_host_hbusProto (b : State) (s : State) : (cmdFree b s).host.hbusProto = s.host.hbusProto := by unfold cmdFree; split <;> simp
@[simp] theorem cmdFree_host_tbHiSpi (b : State) (s : State) : (cmdFree b s).host.tbHiSpi = s.host.tbHiSpi := by unfold cmdFree; split <;> simp
@[simp] theorem cmdFree_host_tbHiHbus (b : State) (s : State) : (cmdFree b s).host.tbHiHbus = s.host.tbHiHbus := by unfold cmdFree; split <;> simp
@[simp] theorem cmdFree_host_feHiSpi (b : State) (s : State) : (cmdFree b s).host.feHiSpi = s.host.feHiSpi := by unfold cmdFree; split <;> simp
@[simp] theorem cmdFree_host_feHiHbus (b : State) (s : State) : (cmdFree b s).host.feHiHbus = s.host.feHiHbus := by unfold cmdFree; split <;> simp
@[simp] theorem cmdFree_host_scratch (b : State) (s : State) : (cmdFree b s).host.scratch = s.host.scratch := by unfold cmdFree; split <;> simp
@[simp] theorem cmdFree_host_irqEn (b : State) (s : State) : (cmdFree b s).host.irqEn = s.host.irqEn := by unfold cmdFree; split <;> simp
@[simp] theorem cmdFree_host_alertEn (b : State) (s : State) : (cmdFree b s).host.alertEn = s.host.alertEn := by unfold cmdFree; split <;> simp
@[simp] theorem cmdFree_host_irqDue (b : State) (s : State) : (cmdFree b s).host.irqDue = s.host.irqDue := by unfold cmdFree; split <;> simp
@[simp] theorem cmdFree_host_alertDue (b : State) (s : State) : (cmdFree b s).host.alertDue = s.host.alertDue := by unfold cmdFree; split <;> simp
@[simp] theorem cmdFree_host_out (b : State) (s : State) : (cmdFree b s).host.out = s.host.out := by unfold cmdFree; split <;> simp
@[simp] theorem cmdFree_host_acks (b : State) (s : State) : (cmdFree b s).host.acks = s.host.acks := by unfold cmdFree; split <;> simp
@[simp] theorem cmdFree_mbox (b : State) (s : State) : (cmdFree b s).mbox = s.mbox := by unfold cmdFree; split <;> simp
@[simp] theorem cmdFree_par (b : State) (s : State) : (cmdFree b s).par = s.par := by unfold cmdFree; split <;> simp
@[simp] theorem cmdFree_otp (b : State) (s : State) : (cmdFree b s).otp = s.otp := by unfold cmdFree; split <;> simp
@[simp] theorem cmdFree_snap (b : State) (s : State) : (cmdFree b s).snap = s.snap := by unfold cmdFree; split <;> simp
@[simp] theorem cmdFree_stby (b : State) (s : State) : (cmdFree b s).stby = s.stby := by unfold cmdFree; split <;> simp
@[simp] theorem cmdFree_sbus (b : State) (s : State) : (cmdFree b s).sbus = s.sbus := by unfold cmdFree; split <;> simp

/-! ### crcMismatch -/

@[simp] theorem crcMismatch_pending (q : Fin 16) (m : BitVec 4) (i : Half) (j : Bool) (s : State) : (crcMismatch q m i j s).pending = s.pending := by simp [crcMismatch]
@[simp] theorem crcMismatch_dev (q : Fin 16) (m : BitVec 4) (i : Half) (j : Bool) (s : State) : (crcMismatch q m i j s).dev = s.dev := by simp [crcMismatch]
@[simp] theorem crcMismatch_boot (q : Fin 16) (m : BitVec 4) (i : Half) (j : Bool) (s : State) : (crcMismatch q m i j s).boot = s.boot := by simp [crcMismatch]
@[simp] theorem crcMismatch_aon (q : Fin 16) (m : BitVec 4) (i : Half) (j : Bool) (s : State) : (crcMismatch q m i j s).aon = s.aon := by simp [crcMismatch]
@[simp] theorem crcMismatch_clk (q : Fin 16) (m : BitVec 4) (i : Half) (j : Bool) (s : State) : (crcMismatch q m i j s).clk = s.clk := by simp [crcMismatch]
@[simp] theorem crcMismatch_wires (q : Fin 16) (m : BitVec 4) (i : Half) (j : Bool) (s : State) : (crcMismatch q m i j s).wires = s.wires := by simp [crcMismatch]
@[simp] theorem crcMismatch_tb (q : Fin 16) (m : BitVec 4) (i : Half) (j : Bool) (s : State) : (crcMismatch q m i j s).tb = s.tb := by simp [crcMismatch]
@[simp] theorem crcMismatch_tbRuns (q : Fin 16) (m : BitVec 4) (i : Half) (j : Bool) (s : State) : (crcMismatch q m i j s).tbRuns = s.tbRuns := by simp [crcMismatch]
@[simp] theorem crcMismatch_lastFrame (q : Fin 16) (m : BitVec 4) (i : Half) (j : Bool) (s : State) : (crcMismatch q m i j s).lastFrame = s.lastFrame := by simp [crcMismatch]
@[simp] theorem crcMismatch_free (q : Fin 16) (m : BitVec 4) (i : Half) (j : Bool) (s : State) : (crcMismatch q m i j s).free = s.free := by simp [crcMismatch]
@[simp] theorem crcMismatch_ride (q : Fin 16) (m : BitVec 4) (i : Half) (j : Bool) (s : State) : (crcMismatch q m i j s).ride = s.ride := by simp [crcMismatch]
@[simp] theorem crcMismatch_tap (q : Fin 16) (m : BitVec 4) (i : Half) (j : Bool) (s : State) : (crcMismatch q m i j s).tap = s.tap := by simp [crcMismatch]
@[simp] theorem crcMismatch_chan (q : Fin 16) (m : BitVec 4) (i : Half) (j : Bool) (s : State) : (crcMismatch q m i j s).chan = s.chan := by simp [crcMismatch]
@[simp] theorem crcMismatch_phase (q : Fin 16) (m : BitVec 4) (i : Half) (j : Bool) (s : State) : (crcMismatch q m i j s).phase = s.phase := by simp [crcMismatch]
@[simp] theorem crcMismatch_src (q : Fin 16) (m : BitVec 4) (i : Half) (j : Bool) (s : State) : (crcMismatch q m i j s).src = s.src := by simp [crcMismatch]
@[simp] theorem crcMismatch_bat (q : Fin 16) (m : BitVec 4) (i : Half) (j : Bool) (s : State) : (crcMismatch q m i j s).bat = s.bat := by simp [crcMismatch]
@[simp] theorem crcMismatch_usb (q : Fin 16) (m : BitVec 4) (i : Half) (j : Bool) (s : State) : (crcMismatch q m i j s).usb = s.usb := by simp [crcMismatch]
@[simp] theorem crcMismatch_load (q : Fin 16) (m : BitVec 4) (i : Half) (j : Bool) (s : State) : (crcMismatch q m i j s).load = s.load := by simp [crcMismatch]
@[simp] theorem crcMismatch_vcc (q : Fin 16) (m : BitVec 4) (i : Half) (j : Bool) (s : State) : (crcMismatch q m i j s).vcc = s.vcc := by simp [crcMismatch]
@[simp] theorem crcMismatch_vdrv (q : Fin 16) (m : BitVec 4) (i : Half) (j : Bool) (s : State) : (crcMismatch q m i j s).vdrv = s.vdrv := by simp [crcMismatch]
@[simp] theorem crcMismatch_sapling (q : Fin 16) (m : BitVec 4) (i : Half) (j : Bool) (s : State) : (crcMismatch q m i j s).sapling = s.sapling := by simp [crcMismatch]
@[simp] theorem crcMismatch_group (q : Fin 16) (m : BitVec 4) (i : Half) (j : Bool) (s : State) : (crcMismatch q m i j s).group = s.group := by simp [crcMismatch]
@[simp] theorem crcMismatch_conv (q : Fin 16) (m : BitVec 4) (i : Half) (j : Bool) (s : State) : (crcMismatch q m i j s).conv = s.conv := by simp [crcMismatch]
@[simp] theorem crcMismatch_therm (q : Fin 16) (m : BitVec 4) (i : Half) (j : Bool) (s : State) : (crcMismatch q m i j s).therm = s.therm := by simp [crcMismatch]
@[simp] theorem crcMismatch_eng (q : Fin 16) (m : BitVec 4) (i : Half) (j : Bool) (s : State) : (crcMismatch q m i j s).eng = s.eng := by simp [crcMismatch]
@[simp] theorem crcMismatch_fc_q8Seen (q : Fin 16) (m : BitVec 4) (i : Half) (j : Bool) (s : State) : (crcMismatch q m i j s).fc.q8Seen = s.fc.q8Seen := by simp [crcMismatch]
@[simp] theorem crcMismatch_fc_inject (q : Fin 16) (m : BitVec 4) (i : Half) (j : Bool) (s : State) : (crcMismatch q m i j s).fc.inject = s.fc.inject := by simp [crcMismatch]
@[simp] theorem crcMismatch_warden (q : Fin 16) (m : BitVec 4) (i : Half) (j : Bool) (s : State) : (crcMismatch q m i j s).warden = s.warden := by simp [crcMismatch]
@[simp] theorem crcMismatch_host_released (q : Fin 16) (m : BitVec 4) (i : Half) (j : Bool) (s : State) : (crcMismatch q m i j s).host.released = s.host.released := by simp [crcMismatch]
@[simp] theorem crcMismatch_host_haddr (q : Fin 16) (m : BitVec 4) (i : Half) (j : Bool) (s : State) : (crcMismatch q m i j s).host.haddr = s.host.haddr := by simp [crcMismatch]
@[simp] theorem crcMismatch_host_pointer (q : Fin 16) (m : BitVec 4) (i : Half) (j : Bool) (s : State) : (crcMismatch q m i j s).host.pointer = s.host.pointer := by simp [crcMismatch]
@[simp] theorem crcMismatch_host_frameErr (q : Fin 16) (m : BitVec 4) (i : Half) (j : Bool) (s : State) : (crcMismatch q m i j s).host.frameErr = s.host.frameErr := by simp [crcMismatch]
@[simp] theorem crcMismatch_host_busErr (q : Fin 16) (m : BitVec 4) (i : Half) (j : Bool) (s : State) : (crcMismatch q m i j s).host.busErr = s.host.busErr := by simp [crcMismatch]
@[simp] theorem crcMismatch_host_hostErr (q : Fin 16) (m : BitVec 4) (i : Half) (j : Bool) (s : State) : (crcMismatch q m i j s).host.hostErr = s.host.hostErr := by simp [crcMismatch]
@[simp] theorem crcMismatch_host_spiErr (q : Fin 16) (m : BitVec 4) (i : Half) (j : Bool) (s : State) : (crcMismatch q m i j s).host.spiErr = s.host.spiErr := by simp [crcMismatch]
@[simp] theorem crcMismatch_host_hbusErr (q : Fin 16) (m : BitVec 4) (i : Half) (j : Bool) (s : State) : (crcMismatch q m i j s).host.hbusErr = s.host.hbusErr := by simp [crcMismatch]
@[simp] theorem crcMismatch_host_spiProto (q : Fin 16) (m : BitVec 4) (i : Half) (j : Bool) (s : State) : (crcMismatch q m i j s).host.spiProto = s.host.spiProto := by simp [crcMismatch]
@[simp] theorem crcMismatch_host_hbusProto (q : Fin 16) (m : BitVec 4) (i : Half) (j : Bool) (s : State) : (crcMismatch q m i j s).host.hbusProto = s.host.hbusProto := by simp [crcMismatch]
@[simp] theorem crcMismatch_host_tbHiSpi (q : Fin 16) (m : BitVec 4) (i : Half) (j : Bool) (s : State) : (crcMismatch q m i j s).host.tbHiSpi = s.host.tbHiSpi := by simp [crcMismatch]
@[simp] theorem crcMismatch_host_tbHiHbus (q : Fin 16) (m : BitVec 4) (i : Half) (j : Bool) (s : State) : (crcMismatch q m i j s).host.tbHiHbus = s.host.tbHiHbus := by simp [crcMismatch]
@[simp] theorem crcMismatch_host_feHiSpi (q : Fin 16) (m : BitVec 4) (i : Half) (j : Bool) (s : State) : (crcMismatch q m i j s).host.feHiSpi = s.host.feHiSpi := by simp [crcMismatch]
@[simp] theorem crcMismatch_host_feHiHbus (q : Fin 16) (m : BitVec 4) (i : Half) (j : Bool) (s : State) : (crcMismatch q m i j s).host.feHiHbus = s.host.feHiHbus := by simp [crcMismatch]
@[simp] theorem crcMismatch_host_scratch (q : Fin 16) (m : BitVec 4) (i : Half) (j : Bool) (s : State) : (crcMismatch q m i j s).host.scratch = s.host.scratch := by simp [crcMismatch]
@[simp] theorem crcMismatch_host_irqEn (q : Fin 16) (m : BitVec 4) (i : Half) (j : Bool) (s : State) : (crcMismatch q m i j s).host.irqEn = s.host.irqEn := by simp [crcMismatch]
@[simp] theorem crcMismatch_host_alertEn (q : Fin 16) (m : BitVec 4) (i : Half) (j : Bool) (s : State) : (crcMismatch q m i j s).host.alertEn = s.host.alertEn := by simp [crcMismatch]
@[simp] theorem crcMismatch_host_irqDue (q : Fin 16) (m : BitVec 4) (i : Half) (j : Bool) (s : State) : (crcMismatch q m i j s).host.irqDue = s.host.irqDue := by simp [crcMismatch]
@[simp] theorem crcMismatch_host_alertDue (q : Fin 16) (m : BitVec 4) (i : Half) (j : Bool) (s : State) : (crcMismatch q m i j s).host.alertDue = s.host.alertDue := by simp [crcMismatch]
@[simp] theorem crcMismatch_host_out (q : Fin 16) (m : BitVec 4) (i : Half) (j : Bool) (s : State) : (crcMismatch q m i j s).host.out = s.host.out := by simp [crcMismatch]
@[simp] theorem crcMismatch_host_acks (q : Fin 16) (m : BitVec 4) (i : Half) (j : Bool) (s : State) : (crcMismatch q m i j s).host.acks = s.host.acks := by simp [crcMismatch]
@[simp] theorem crcMismatch_mbox (q : Fin 16) (m : BitVec 4) (i : Half) (j : Bool) (s : State) : (crcMismatch q m i j s).mbox = s.mbox := by simp [crcMismatch]
@[simp] theorem crcMismatch_par (q : Fin 16) (m : BitVec 4) (i : Half) (j : Bool) (s : State) : (crcMismatch q m i j s).par = s.par := by simp [crcMismatch]
@[simp] theorem crcMismatch_otp (q : Fin 16) (m : BitVec 4) (i : Half) (j : Bool) (s : State) : (crcMismatch q m i j s).otp = s.otp := by simp [crcMismatch]
@[simp] theorem crcMismatch_snap (q : Fin 16) (m : BitVec 4) (i : Half) (j : Bool) (s : State) : (crcMismatch q m i j s).snap = s.snap := by simp [crcMismatch]
@[simp] theorem crcMismatch_stby (q : Fin 16) (m : BitVec 4) (i : Half) (j : Bool) (s : State) : (crcMismatch q m i j s).stby = s.stby := by simp [crcMismatch]
@[simp] theorem crcMismatch_sbus (q : Fin 16) (m : BitVec 4) (i : Half) (j : Bool) (s : State) : (crcMismatch q m i j s).sbus = s.sbus := by simp [crcMismatch]

/-! ### busError -/

@[simp] theorem busError_pending (m : BitVec 4) (a : Access) (w : Word) (s : State) : (busError m a w s).pending = s.pending := by unfold busError; (repeat' split) <;> simp
@[simp] theorem busError_dev (m : BitVec 4) (a : Access) (w : Word) (s : State) : (busError m a w s).dev = s.dev := by unfold busError; (repeat' split) <;> simp
@[simp] theorem busError_boot (m : BitVec 4) (a : Access) (w : Word) (s : State) : (busError m a w s).boot = s.boot := by unfold busError; (repeat' split) <;> simp
@[simp] theorem busError_aon (m : BitVec 4) (a : Access) (w : Word) (s : State) : (busError m a w s).aon = s.aon := by unfold busError; (repeat' split) <;> simp
@[simp] theorem busError_clk (m : BitVec 4) (a : Access) (w : Word) (s : State) : (busError m a w s).clk = s.clk := by unfold busError; (repeat' split) <;> simp
@[simp] theorem busError_wires (m : BitVec 4) (a : Access) (w : Word) (s : State) : (busError m a w s).wires = s.wires := by unfold busError; (repeat' split) <;> simp
@[simp] theorem busError_tb (m : BitVec 4) (a : Access) (w : Word) (s : State) : (busError m a w s).tb = s.tb := by unfold busError; (repeat' split) <;> simp
@[simp] theorem busError_tbRuns (m : BitVec 4) (a : Access) (w : Word) (s : State) : (busError m a w s).tbRuns = s.tbRuns := by unfold busError; (repeat' split) <;> simp
@[simp] theorem busError_lastFrame (m : BitVec 4) (a : Access) (w : Word) (s : State) : (busError m a w s).lastFrame = s.lastFrame := by unfold busError; (repeat' split) <;> simp
@[simp] theorem busError_free (m : BitVec 4) (a : Access) (w : Word) (s : State) : (busError m a w s).free = s.free := by unfold busError; (repeat' split) <;> simp
@[simp] theorem busError_ride (m : BitVec 4) (a : Access) (w : Word) (s : State) : (busError m a w s).ride = s.ride := by unfold busError; (repeat' split) <;> simp
@[simp] theorem busError_tap (m : BitVec 4) (a : Access) (w : Word) (s : State) : (busError m a w s).tap = s.tap := by unfold busError; (repeat' split) <;> simp
@[simp] theorem busError_chan (m : BitVec 4) (a : Access) (w : Word) (s : State) : (busError m a w s).chan = s.chan := by unfold busError; (repeat' split) <;> simp
@[simp] theorem busError_phase (m : BitVec 4) (a : Access) (w : Word) (s : State) : (busError m a w s).phase = s.phase := by unfold busError; (repeat' split) <;> simp
@[simp] theorem busError_src (m : BitVec 4) (a : Access) (w : Word) (s : State) : (busError m a w s).src = s.src := by unfold busError; (repeat' split) <;> simp
@[simp] theorem busError_bat (m : BitVec 4) (a : Access) (w : Word) (s : State) : (busError m a w s).bat = s.bat := by unfold busError; (repeat' split) <;> simp
@[simp] theorem busError_usb (m : BitVec 4) (a : Access) (w : Word) (s : State) : (busError m a w s).usb = s.usb := by unfold busError; (repeat' split) <;> simp
@[simp] theorem busError_load (m : BitVec 4) (a : Access) (w : Word) (s : State) : (busError m a w s).load = s.load := by unfold busError; (repeat' split) <;> simp
@[simp] theorem busError_vcc (m : BitVec 4) (a : Access) (w : Word) (s : State) : (busError m a w s).vcc = s.vcc := by unfold busError; (repeat' split) <;> simp
@[simp] theorem busError_vdrv (m : BitVec 4) (a : Access) (w : Word) (s : State) : (busError m a w s).vdrv = s.vdrv := by unfold busError; (repeat' split) <;> simp
@[simp] theorem busError_sapling (m : BitVec 4) (a : Access) (w : Word) (s : State) : (busError m a w s).sapling = s.sapling := by unfold busError; (repeat' split) <;> simp
@[simp] theorem busError_group (m : BitVec 4) (a : Access) (w : Word) (s : State) : (busError m a w s).group = s.group := by unfold busError; (repeat' split) <;> simp
@[simp] theorem busError_conv (m : BitVec 4) (a : Access) (w : Word) (s : State) : (busError m a w s).conv = s.conv := by unfold busError; (repeat' split) <;> simp
@[simp] theorem busError_therm (m : BitVec 4) (a : Access) (w : Word) (s : State) : (busError m a w s).therm = s.therm := by unfold busError; (repeat' split) <;> simp
@[simp] theorem busError_eng (m : BitVec 4) (a : Access) (w : Word) (s : State) (h : a ≠ .fetch) : (busError m a w s).eng = s.eng := by
  unfold busError; (repeat' split) <;> simp_all
@[simp] theorem busError_fc_q8Seen (m : BitVec 4) (a : Access) (w : Word) (s : State) : (busError m a w s).fc.q8Seen = s.fc.q8Seen := by unfold busError; (repeat' split) <;> simp
@[simp] theorem busError_fc_inject (m : BitVec 4) (a : Access) (w : Word) (s : State) : (busError m a w s).fc.inject = s.fc.inject := by unfold busError; (repeat' split) <;> simp
@[simp] theorem busError_warden (m : BitVec 4) (a : Access) (w : Word) (s : State) : (busError m a w s).warden = s.warden := by unfold busError; (repeat' split) <;> simp
@[simp] theorem busError_host (m : BitVec 4) (a : Access) (w : Word) (s : State) : (busError m a w s).host = s.host := by unfold busError; (repeat' split) <;> simp
@[simp] theorem busError_mbox (m : BitVec 4) (a : Access) (w : Word) (s : State) : (busError m a w s).mbox = s.mbox := by unfold busError; (repeat' split) <;> simp
@[simp] theorem busError_par (m : BitVec 4) (a : Access) (w : Word) (s : State) : (busError m a w s).par = s.par := by unfold busError; (repeat' split) <;> simp
@[simp] theorem busError_otp (m : BitVec 4) (a : Access) (w : Word) (s : State) : (busError m a w s).otp = s.otp := by unfold busError; (repeat' split) <;> simp
@[simp] theorem busError_snap (m : BitVec 4) (a : Access) (w : Word) (s : State) : (busError m a w s).snap = s.snap := by unfold busError; (repeat' split) <;> simp
@[simp] theorem busError_stby (m : BitVec 4) (a : Access) (w : Word) (s : State) : (busError m a w s).stby = s.stby := by unfold busError; (repeat' split) <;> simp
@[simp] theorem busError_sbus (m : BitVec 4) (a : Access) (w : Word) (s : State) : (busError m a w s).sbus = s.sbus := by unfold busError; (repeat' split) <;> simp

end Sys2Proof.Machine
end

