-- ==== Sys2Proof/Laws/Rings.lean ====
section
/-! SUPPORT. The rings: which ring an operation changes, what a push with credit does, and the frame of a push and a pop. -/

namespace Sys2Proof.Machine
open Sys2Proof

theorem putRing_get (q j : Fin 16) (r : Ring) (s : State) : (putRing q r s).ring[j.val] = if q = j then r else s.ring[j.val] := by
  by_cases h : q = j
  · subst h; simp
  · have h2 : q.val ≠ j.val := fun e => h (Fin.ext e)
    simp [h, h2]

@[simp] theorem putRing_self (q : Fin 16) (r : Ring) (s : State) : (putRing q r s).ring[q.val] = r := by simp

theorem putRing_other {q j : Fin 16} (h : q ≠ j) (r : Ring) (s : State) : (putRing q r s).ring[j.val] = s.ring[j.val] := by
  rw [putRing_get]; simp [h]

/-- Another ring is untouched by a dropped record. -/
theorem dropRecord_ring_other {q j : Fin 16} (h : q ≠ j) (s : State) : (dropRecord q s).ring[j.val] = s.ring[j.val] := by
  have h2 : q.val ≠ j.val := fun e => h (Fin.ext e)
  unfold dropRecord; simp only []; split <;> simp [h2]

/-- A report touches Q8 alone of the rings. -/
theorem report_ring_other {j : Fin 16} (h : 8 ≠ j) (r : Report) (s : State) : (report r s).ring[j.val] = s.ring[j.val] := by
  have h2 : 8 ≠ j.val := fun e => h (Fin.ext e)
  unfold report
  repeat' split
  all_goals simp [dropReport, h2]

/-- An event touches Q2 alone of the rings. -/
theorem putEvent_ring_other {j : Fin 16} (h : 2 ≠ j) (c : Half) (f : Bool) (t : TB) (d : List Byte) (s : State) :
    (putEvent c f t d s).ring[j.val] = s.ring[j.val] := by
  have h2 : 2 ≠ j.val := fun e => h (Fin.ext e)
  unfold putEvent; simp only []; split
  · simp [h2]
  · simp [dropRecord_ring_other h]

theorem flushLost_ring_other {j : Fin 16} (h : 2 ≠ j) (s : State) : (flushLost s).ring[j.val] = s.ring[j.val] := by
  unfold flushLost; simp only []; split
  · rw [putEvent_ring_other h]
  · rfl

theorem pushEventAt_ring_other {j : Fin 16} (h : 2 ≠ j) (c : Half) (f : Bool) (t : TB) (d : List Byte) (s : State) :
    (pushEventAt t c f d s).ring[j.val] = s.ring[j.val] := by
  unfold pushEventAt; simp only []
  repeat' split
  all_goals simp [putEvent_ring_other h, flushLost_ring_other h]

theorem pushEvent_ring_other {j : Fin 16} (h : 2 ≠ j) (c : Half) (d : List Byte) (s : State) :
    (pushEvent c d s).ring[j.val] = s.ring[j.val] := pushEventAt_ring_other h ..

/-! ### A push on a ring that stalls -/

/-- With credit and nothing stalled the record is placed. -/
theorem pushRing_stall_place {q : Fin 16} {bs : List Byte} {s : State} (hp : ringPolicy q = .stall)
    (he : s.ring[q.val].stalled = []) (hc : recordEntries q bs ≤ credit q s.ring[q.val]) :
    pushRing q bs s = armAlert s (putRing q (place q bs s.ring[q.val]) s) := by
  unfold pushRing
  simp [hp, he, hc]

/-- Without credit, or behind a stalled record, it waits (R329). -/
theorem pushRing_stall_wait {q : Fin 16} {bs : List Byte} {s : State} (hp : ringPolicy q = .stall)
    (h : s.ring[q.val].stalled ≠ [] ∨ credit q s.ring[q.val] < recordEntries q bs) :
    pushRing q bs s = putRing q { s.ring[q.val] with stalled := s.ring[q.val].stalled ++ [bs] } s := by
  unfold pushRing
  simp only [hp]
  rcases h with h | h
  · simp [h]
  · have : ¬ recordEntries q bs ≤ credit q s.ring[q.val] := by omega
    simp [this]

/-! ### The frame of a push and a pop -/

theorem each_keep {α β : Type} (g : State → β) (f : α → State → State) (h : ∀ a s, g (f a s) = g s) :
    ∀ (l : List α) (s : State), g (each l f s) = g s
  | [], _ => rfl
  | a :: l, s => by
    show g (each l f (f a s)) = g s
    rw [each_keep g f h l, h]

/-! ### overrunAll -/

@[simp] theorem overrunAll_pending (q : Fin 16) (s : State) : (overrunAll q s).pending = s.pending := by unfold overrunAll; split <;> [exact each_keep (fun s => s.pending) _ (fun _ _ => by simp) _ _; rfl]
@[simp] theorem overrunAll_dev (q : Fin 16) (s : State) : (overrunAll q s).dev = s.dev := by unfold overrunAll; split <;> [exact each_keep (fun s => s.dev) _ (fun _ _ => by simp) _ _; rfl]
@[simp] theorem overrunAll_boot (q : Fin 16) (s : State) : (overrunAll q s).boot = s.boot := by unfold overrunAll; split <;> [exact each_keep (fun s => s.boot) _ (fun _ _ => by simp) _ _; rfl]
@[simp] theorem overrunAll_aon (q : Fin 16) (s : State) : (overrunAll q s).aon = s.aon := by unfold overrunAll; split <;> [exact each_keep (fun s => s.aon) _ (fun _ _ => by simp) _ _; rfl]
@[simp] theorem overrunAll_clk (q : Fin 16) (s : State) : (overrunAll q s).clk = s.clk := by unfold overrunAll; split <;> [exact each_keep (fun s => s.clk) _ (fun _ _ => by simp) _ _; rfl]
@[simp] theorem overrunAll_wires (q : Fin 16) (s : State) : (overrunAll q s).wires = s.wires := by unfold overrunAll; split <;> [exact each_keep (fun s => s.wires) _ (fun _ _ => by simp) _ _; rfl]
@[simp] theorem overrunAll_tb (q : Fin 16) (s : State) : (overrunAll q s).tb = s.tb := by unfold overrunAll; split <;> [exact each_keep (fun s => s.tb) _ (fun _ _ => by simp) _ _; rfl]
@[simp] theorem overrunAll_tbRuns (q : Fin 16) (s : State) : (overrunAll q s).tbRuns = s.tbRuns := by unfold overrunAll; split <;> [exact each_keep (fun s => s.tbRuns) _ (fun _ _ => by simp) _ _; rfl]
@[simp] theorem overrunAll_lastFrame (q : Fin 16) (s : State) : (overrunAll q s).lastFrame = s.lastFrame := by unfold overrunAll; split <;> [exact each_keep (fun s => s.lastFrame) _ (fun _ _ => by simp) _ _; rfl]
@[simp] theorem overrunAll_free (q : Fin 16) (s : State) : (overrunAll q s).free = s.free := by unfold overrunAll; split <;> [exact each_keep (fun s => s.free) _ (fun _ _ => by simp) _ _; rfl]
@[simp] theorem overrunAll_ride (q : Fin 16) (s : State) : (overrunAll q s).ride = s.ride := by unfold overrunAll; split <;> [exact each_keep (fun s => s.ride) _ (fun _ _ => by simp) _ _; rfl]
@[simp] theorem overrunAll_tap (q : Fin 16) (s : State) : (overrunAll q s).tap = s.tap := by unfold overrunAll; split <;> [exact each_keep (fun s => s.tap) _ (fun _ _ => by simp) _ _; rfl]
@[simp] theorem overrunAll_chan (q : Fin 16) (s : State) : (overrunAll q s).chan = s.chan := by unfold overrunAll; split <;> [exact each_keep (fun s => s.chan) _ (fun _ _ => by simp) _ _; rfl]
@[simp] theorem overrunAll_phase (q : Fin 16) (s : State) : (overrunAll q s).phase = s.phase := by unfold overrunAll; split <;> [exact each_keep (fun s => s.phase) _ (fun _ _ => by simp) _ _; rfl]
@[simp] theorem overrunAll_src (q : Fin 16) (s : State) : (overrunAll q s).src = s.src := by unfold overrunAll; split <;> [exact each_keep (fun s => s.src) _ (fun _ _ => by simp) _ _; rfl]
@[simp] theorem overrunAll_bat (q : Fin 16) (s : State) : (overrunAll q s).bat = s.bat := by unfold overrunAll; split <;> [exact each_keep (fun s => s.bat) _ (fun _ _ => by simp) _ _; rfl]
@[simp] theorem overrunAll_usb (q : Fin 16) (s : State) : (overrunAll q s).usb = s.usb := by unfold overrunAll; split <;> [exact each_keep (fun s => s.usb) _ (fun _ _ => by simp) _ _; rfl]
@[simp] theorem overrunAll_load (q : Fin 16) (s : State) : (overrunAll q s).load = s.load := by unfold overrunAll; split <;> [exact each_keep (fun s => s.load) _ (fun _ _ => by simp) _ _; rfl]
@[simp] theorem overrunAll_vcc (q : Fin 16) (s : State) : (overrunAll q s).vcc = s.vcc := by unfold overrunAll; split <;> [exact each_keep (fun s => s.vcc) _ (fun _ _ => by simp) _ _; rfl]
@[simp] theorem overrunAll_vdrv (q : Fin 16) (s : State) : (overrunAll q s).vdrv = s.vdrv := by unfold overrunAll; split <;> [exact each_keep (fun s => s.vdrv) _ (fun _ _ => by simp) _ _; rfl]
@[simp] theorem overrunAll_sapling (q : Fin 16) (s : State) : (overrunAll q s).sapling = s.sapling := by unfold overrunAll; split <;> [exact each_keep (fun s => s.sapling) _ (fun _ _ => by simp) _ _; rfl]
@[simp] theorem overrunAll_group (q : Fin 16) (s : State) : (overrunAll q s).group = s.group := by unfold overrunAll; split <;> [exact each_keep (fun s => s.group) _ (fun _ _ => by simp) _ _; rfl]
@[simp] theorem overrunAll_conv (q : Fin 16) (s : State) : (overrunAll q s).conv = s.conv := by unfold overrunAll; split <;> [exact each_keep (fun s => s.conv) _ (fun _ _ => by simp) _ _; rfl]
@[simp] theorem overrunAll_therm (q : Fin 16) (s : State) : (overrunAll q s).therm = s.therm := by unfold overrunAll; split <;> [exact each_keep (fun s => s.therm) _ (fun _ _ => by simp) _ _; rfl]
@[simp] theorem overrunAll_eng (q : Fin 16) (s : State) : (overrunAll q s).eng = s.eng := by unfold overrunAll; split <;> [exact each_keep (fun s => s.eng) _ (fun _ _ => by simp) _ _; rfl]
@[simp] theorem overrunAll_fc_q8Seen (q : Fin 16) (s : State) : (overrunAll q s).fc.q8Seen = s.fc.q8Seen := by unfold overrunAll; split <;> [exact each_keep (fun s => s.fc.q8Seen) _ (fun _ _ => by simp) _ _; rfl]
@[simp] theorem overrunAll_fc_inject (q : Fin 16) (s : State) : (overrunAll q s).fc.inject = s.fc.inject := by unfold overrunAll; split <;> [exact each_keep (fun s => s.fc.inject) _ (fun _ _ => by simp) _ _; rfl]
@[simp] theorem overrunAll_warden (q : Fin 16) (s : State) : (overrunAll q s).warden = s.warden := by unfold overrunAll; split <;> [exact each_keep (fun s => s.warden) _ (fun _ _ => by simp) _ _; rfl]
@[simp] theorem overrunAll_host (q : Fin 16) (s : State) : (overrunAll q s).host = s.host := by unfold overrunAll; split <;> [exact each_keep (fun s => s.host) _ (fun _ _ => by simp) _ _; rfl]
@[simp] theorem overrunAll_mbox (q : Fin 16) (s : State) : (overrunAll q s).mbox = s.mbox := by unfold overrunAll; split <;> [exact each_keep (fun s => s.mbox) _ (fun _ _ => by simp) _ _; rfl]
@[simp] theorem overrunAll_par (q : Fin 16) (s : State) : (overrunAll q s).par = s.par := by unfold overrunAll; split <;> [exact each_keep (fun s => s.par) _ (fun _ _ => by simp) _ _; rfl]
@[simp] theorem overrunAll_otp (q : Fin 16) (s : State) : (overrunAll q s).otp = s.otp := by unfold overrunAll; split <;> [exact each_keep (fun s => s.otp) _ (fun _ _ => by simp) _ _; rfl]
@[simp] theorem overrunAll_snap (q : Fin 16) (s : State) : (overrunAll q s).snap = s.snap := by unfold overrunAll; split <;> [exact each_keep (fun s => s.snap) _ (fun _ _ => by simp) _ _; rfl]
@[simp] theorem overrunAll_stby (q : Fin 16) (s : State) : (overrunAll q s).stby = s.stby := by unfold overrunAll; split <;> [exact each_keep (fun s => s.stby) _ (fun _ _ => by simp) _ _; rfl]
@[simp] theorem overrunAll_sbus (q : Fin 16) (s : State) : (overrunAll q s).sbus = s.sbus := by unfold overrunAll; split <;> [exact each_keep (fun s => s.sbus) _ (fun _ _ => by simp) _ _; rfl]

/-! ### pushRing -/

@[simp] theorem pushRing_pending (q : Fin 16) (bs : List Byte) (s : State) : (pushRing q bs s).pending = s.pending := by
    unfold pushRing; simp only []; repeat' split
    all_goals simp
@[simp] theorem pushRing_dev (q : Fin 16) (bs : List Byte) (s : State) : (pushRing q bs s).dev = s.dev := by
    unfold pushRing; simp only []; repeat' split
    all_goals simp
@[simp] theorem pushRing_boot (q : Fin 16) (bs : List Byte) (s : State) : (pushRing q bs s).boot = s.boot := by
    unfold pushRing; simp only []; repeat' split
    all_goals simp
@[simp] theorem pushRing_aon (q : Fin 16) (bs : List Byte) (s : State) : (pushRing q bs s).aon = s.aon := by
    unfold pushRing; simp only []; repeat' split
    all_goals simp
@[simp] theorem pushRing_clk (q : Fin 16) (bs : List Byte) (s : State) : (pushRing q bs s).clk = s.clk := by
    unfold pushRing; simp only []; repeat' split
    all_goals simp
@[simp] theorem pushRing_wires (q : Fin 16) (bs : List Byte) (s : State) : (pushRing q bs s).wires = s.wires := by
    unfold pushRing; simp only []; repeat' split
    all_goals simp
@[simp] theorem pushRing_tb (q : Fin 16) (bs : List Byte) (s : State) : (pushRing q bs s).tb = s.tb := by
    unfold pushRing; simp only []; repeat' split
    all_goals simp
@[simp] theorem pushRing_tbRuns (q : Fin 16) (bs : List Byte) (s : State) : (pushRing q bs s).tbRuns = s.tbRuns := by
    unfold pushRing; simp only []; repeat' split
    all_goals simp
@[simp] theorem pushRing_lastFrame (q : Fin 16) (bs : List Byte) (s : State) : (pushRing q bs s).lastFrame = s.lastFrame := by
    unfold pushRing; simp only []; repeat' split
    all_goals simp
@[simp] theorem pushRing_free (q : Fin 16) (bs : List Byte) (s : State) : (pushRing q bs s).free = s.free := by
    unfold pushRing; simp only []; repeat' split
    all_goals simp
@[simp] theorem pushRing_ride (q : Fin 16) (bs : List Byte) (s : State) : (pushRing q bs s).ride = s.ride := by
    unfold pushRing; simp only []; repeat' split
    all_goals simp
@[simp] theorem pushRing_tap (q : Fin 16) (bs : List Byte) (s : State) : (pushRing q bs s).tap = s.tap := by
    unfold pushRing; simp only []; repeat' split
    all_goals simp
@[simp] theorem pushRing_chan (q : Fin 16) (bs : List Byte) (s : State) : (pushRing q bs s).chan = s.chan := by
    unfold pushRing; simp only []; repeat' split
    all_goals simp
@[simp] theorem pushRing_phase (q : Fin 16) (bs : List Byte) (s : State) : (pushRing q bs s).phase = s.phase := by
    unfold pushRing; simp only []; repeat' split
    all_goals simp
@[simp] theorem pushRing_src (q : Fin 16) (bs : List Byte) (s : State) : (pushRing q bs s).src = s.src := by
    unfold pushRing; simp only []; repeat' split
    all_goals simp
@[simp] theorem pushRing_bat (q : Fin 16) (bs : List Byte) (s : State) : (pushRing q bs s).bat = s.bat := by
    unfold pushRing; simp only []; repeat' split
    all_goals simp
@[simp] theorem pushRing_usb (q : Fin 16) (bs : List Byte) (s : State) : (pushRing q bs s).usb = s.usb := by
    unfold pushRing; simp only []; repeat' split
    all_goals simp
@[simp] theorem pushRing_load (q : Fin 16) (bs : List Byte) (s : State) : (pushRing q bs s).load = s.load := by
    unfold pushRing; simp only []; repeat' split
    all_goals simp
@[simp] theorem pushRing_vcc (q : Fin 16) (bs : List Byte) (s : State) : (pushRing q bs s).vcc = s.vcc := by
    unfold pushRing; simp only []; repeat' split
    all_goals simp
@[simp] theorem pushRing_vdrv (q : Fin 16) (bs : List Byte) (s : State) : (pushRing q bs s).vdrv = s.vdrv := by
    unfold pushRing; simp only []; repeat' split
    all_goals simp
@[simp] theorem pushRing_sapling (q : Fin 16) (bs : List Byte) (s : State) : (pushRing q bs s).sapling = s.sapling := by
    unfold pushRing; simp only []; repeat' split
    all_goals simp
@[simp] theorem pushRing_group (q : Fin 16) (bs : List Byte) (s : State) : (pushRing q bs s).group = s.group := by
    unfold pushRing; simp only []; repeat' split
    all_goals simp
@[simp] theorem pushRing_conv (q : Fin 16) (bs : List Byte) (s : State) : (pushRing q bs s).conv = s.conv := by
    unfold pushRing; simp only []; repeat' split
    all_goals simp
@[simp] theorem pushRing_therm (q : Fin 16) (bs : List Byte) (s : State) : (pushRing q bs s).therm = s.therm := by
    unfold pushRing; simp only []; repeat' split
    all_goals simp
@[simp] theorem pushRing_eng (q : Fin 16) (bs : List Byte) (s : State) : (pushRing q bs s).eng = s.eng := by
    unfold pushRing; simp only []; repeat' split
    all_goals simp
@[simp] theorem pushRing_fc_q8Seen (q : Fin 16) (bs : List Byte) (s : State) : (pushRing q bs s).fc.q8Seen = s.fc.q8Seen := by
    unfold pushRing; simp only []; repeat' split
    all_goals simp
@[simp] theorem pushRing_fc_inject (q : Fin 16) (bs : List Byte) (s : State) : (pushRing q bs s).fc.inject = s.fc.inject := by
    unfold pushRing; simp only []; repeat' split
    all_goals simp
@[simp] theorem pushRing_warden (q : Fin 16) (bs : List Byte) (s : State) : (pushRing q bs s).warden = s.warden := by
    unfold pushRing; simp only []; repeat' split
    all_goals simp
@[simp] theorem pushRing_host_released (q : Fin 16) (bs : List Byte) (s : State) : (pushRing q bs s).host.released = s.host.released := by
    unfold pushRing; simp only []; repeat' split
    all_goals simp
@[simp] theorem pushRing_host_haddr (q : Fin 16) (bs : List Byte) (s : State) : (pushRing q bs s).host.haddr = s.host.haddr := by
    unfold pushRing; simp only []; repeat' split
    all_goals simp
@[simp] theorem pushRing_host_pointer (q : Fin 16) (bs : List Byte) (s : State) : (pushRing q bs s).host.pointer = s.host.pointer := by
    unfold pushRing; simp only []; repeat' split
    all_goals simp
@[simp] theorem pushRing_host_frameErr (q : Fin 16) (bs : List Byte) (s : State) : (pushRing q bs s).host.frameErr = s.host.frameErr := by
    unfold pushRing; simp only []; repeat' split
    all_goals simp
@[simp] theorem pushRing_host_busErr (q : Fin 16) (bs : List Byte) (s : State) : (pushRing q bs s).host.busErr = s.host.busErr := by
    unfold pushRing; simp only []; repeat' split
    all_goals simp
@[simp] theorem pushRing_host_hostErr (q : Fin 16) (bs : List Byte) (s : State) : (pushRing q bs s).host.hostErr = s.host.hostErr := by
    unfold pushRing; simp only []; repeat' split
    all_goals simp
@[simp] theorem pushRing_host_spiErr (q : Fin 16) (bs : List Byte) (s : State) : (pushRing q bs s).host.spiErr = s.host.spiErr := by
    unfold pushRing; simp only []; repeat' split
    all_goals simp
@[simp] theorem pushRing_host_hbusErr (q : Fin 16) (bs : List Byte) (s : State) : (pushRing q bs s).host.hbusErr = s.host.hbusErr := by
    unfold pushRing; simp only []; repeat' split
    all_goals simp
@[simp] theorem pushRing_host_spiProto (q : Fin 16) (bs : List Byte) (s : State) : (pushRing q bs s).host.spiProto = s.host.spiProto := by
    unfold pushRing; simp only []; repeat' split
    all_goals simp
@[simp] theorem pushRing_host_hbusProto (q : Fin 16) (bs : List Byte) (s : State) : (pushRing q bs s).host.hbusProto = s.host.hbusProto := by
    unfold pushRing; simp only []; repeat' split
    all_goals simp
@[simp] theorem pushRing_host_tbHiSpi (q : Fin 16) (bs : List Byte) (s : State) : (pushRing q bs s).host.tbHiSpi = s.host.tbHiSpi := by
    unfold pushRing; simp only []; repeat' split
    all_goals simp
@[simp] theorem pushRing_host_tbHiHbus (q : Fin 16) (bs : List Byte) (s : State) : (pushRing q bs s).host.tbHiHbus = s.host.tbHiHbus := by
    unfold pushRing; simp only []; repeat' split
    all_goals simp
@[simp] theorem pushRing_host_feHiSpi (q : Fin 16) (bs : List Byte) (s : State) : (pushRing q bs s).host.feHiSpi = s.host.feHiSpi := by
    unfold pushRing; simp only []; repeat' split
    all_goals simp
@[simp] theorem pushRing_host_feHiHbus (q : Fin 16) (bs : List Byte) (s : State) : (pushRing q bs s).host.feHiHbus = s.host.feHiHbus := by
    unfold pushRing; simp only []; repeat' split
    all_goals simp
@[simp] theorem pushRing_host_scratch (q : Fin 16) (bs : List Byte) (s : State) : (pushRing q bs s).host.scratch = s.host.scratch := by
    unfold pushRing; simp only []; repeat' split
    all_goals simp
@[simp] theorem pushRing_host_irqEn (q : Fin 16) (bs : List Byte) (s : State) : (pushRing q bs s).host.irqEn = s.host.irqEn := by
    unfold pushRing; simp only []; repeat' split
    all_goals simp
@[simp] theorem pushRing_host_alertEn (q : Fin 16) (bs : List Byte) (s : State) : (pushRing q bs s).host.alertEn = s.host.alertEn := by
    unfold pushRing; simp only []; repeat' split
    all_goals simp
@[simp] theorem pushRing_host_irqDue (q : Fin 16) (bs : List Byte) (s : State) : (pushRing q bs s).host.irqDue = s.host.irqDue := by
    unfold pushRing; simp only []; repeat' split
    all_goals simp
@[simp] theorem pushRing_host_alertDue (q : Fin 16) (bs : List Byte) (s : State) : (pushRing q bs s).host.alertDue = s.host.alertDue := by
    unfold pushRing; simp only []; repeat' split
    all_goals simp
@[simp] theorem pushRing_host_out (q : Fin 16) (bs : List Byte) (s : State) : (pushRing q bs s).host.out = s.host.out := by
    unfold pushRing; simp only []; repeat' split
    all_goals simp
@[simp] theorem pushRing_host_acks (q : Fin 16) (bs : List Byte) (s : State) : (pushRing q bs s).host.acks = s.host.acks := by
    unfold pushRing; simp only []; repeat' split
    all_goals simp
@[simp] theorem pushRing_mbox (q : Fin 16) (bs : List Byte) (s : State) : (pushRing q bs s).mbox = s.mbox := by
    unfold pushRing; simp only []; repeat' split
    all_goals simp
@[simp] theorem pushRing_par (q : Fin 16) (bs : List Byte) (s : State) : (pushRing q bs s).par = s.par := by
    unfold pushRing; simp only []; repeat' split
    all_goals simp
@[simp] theorem pushRing_otp (q : Fin 16) (bs : List Byte) (s : State) : (pushRing q bs s).otp = s.otp := by
    unfold pushRing; simp only []; repeat' split
    all_goals simp
@[simp] theorem pushRing_snap (q : Fin 16) (bs : List Byte) (s : State) : (pushRing q bs s).snap = s.snap := by
    unfold pushRing; simp only []; repeat' split
    all_goals simp
@[simp] theorem pushRing_stby (q : Fin 16) (bs : List Byte) (s : State) : (pushRing q bs s).stby = s.stby := by
    unfold pushRing; simp only []; repeat' split
    all_goals simp
@[simp] theorem pushRing_sbus (q : Fin 16) (bs : List Byte) (s : State) : (pushRing q bs s).sbus = s.sbus := by
    unfold pushRing; simp only []; repeat' split
    all_goals simp

/-! ### popRing -/

@[simp] theorem popRing_pending (q : Fin 16) (m : BitVec 4) (k : Bool) (s : State) : (popRing q m k s).pending = s.pending := by
    unfold popRing injected; simp only []; repeat' split
    all_goals simp
@[simp] theorem popRing_dev (q : Fin 16) (m : BitVec 4) (k : Bool) (s : State) : (popRing q m k s).dev = s.dev := by
    unfold popRing injected; simp only []; repeat' split
    all_goals simp
@[simp] theorem popRing_boot (q : Fin 16) (m : BitVec 4) (k : Bool) (s : State) : (popRing q m k s).boot = s.boot := by
    unfold popRing injected; simp only []; repeat' split
    all_goals simp
@[simp] theorem popRing_aon (q : Fin 16) (m : BitVec 4) (k : Bool) (s : State) : (popRing q m k s).aon = s.aon := by
    unfold popRing injected; simp only []; repeat' split
    all_goals simp
@[simp] theorem popRing_clk (q : Fin 16) (m : BitVec 4) (k : Bool) (s : State) : (popRing q m k s).clk = s.clk := by
    unfold popRing injected; simp only []; repeat' split
    all_goals simp
@[simp] theorem popRing_wires (q : Fin 16) (m : BitVec 4) (k : Bool) (s : State) : (popRing q m k s).wires = s.wires := by
    unfold popRing injected; simp only []; repeat' split
    all_goals simp
@[simp] theorem popRing_tb (q : Fin 16) (m : BitVec 4) (k : Bool) (s : State) : (popRing q m k s).tb = s.tb := by
    unfold popRing injected; simp only []; repeat' split
    all_goals simp
@[simp] theorem popRing_tbRuns (q : Fin 16) (m : BitVec 4) (k : Bool) (s : State) : (popRing q m k s).tbRuns = s.tbRuns := by
    unfold popRing injected; simp only []; repeat' split
    all_goals simp
@[simp] theorem popRing_lastFrame (q : Fin 16) (m : BitVec 4) (k : Bool) (s : State) : (popRing q m k s).lastFrame = s.lastFrame := by
    unfold popRing injected; simp only []; repeat' split
    all_goals simp
@[simp] theorem popRing_free (q : Fin 16) (m : BitVec 4) (k : Bool) (s : State) : (popRing q m k s).free = s.free := by
    unfold popRing injected; simp only []; repeat' split
    all_goals simp
@[simp] theorem popRing_ride (q : Fin 16) (m : BitVec 4) (k : Bool) (s : State) : (popRing q m k s).ride = s.ride := by
    unfold popRing injected; simp only []; repeat' split
    all_goals simp
@[simp] theorem popRing_tap (q : Fin 16) (m : BitVec 4) (k : Bool) (s : State) : (popRing q m k s).tap = s.tap := by
    unfold popRing injected; simp only []; repeat' split
    all_goals simp
@[simp] theorem popRing_chan (q : Fin 16) (m : BitVec 4) (k : Bool) (s : State) : (popRing q m k s).chan = s.chan := by
    unfold popRing injected; simp only []; repeat' split
    all_goals simp
@[simp] theorem popRing_phase (q : Fin 16) (m : BitVec 4) (k : Bool) (s : State) : (popRing q m k s).phase = s.phase := by
    unfold popRing injected; simp only []; repeat' split
    all_goals simp
@[simp] theorem popRing_src (q : Fin 16) (m : BitVec 4) (k : Bool) (s : State) : (popRing q m k s).src = s.src := by
    unfold popRing injected; simp only []; repeat' split
    all_goals simp
@[simp] theorem popRing_bat (q : Fin 16) (m : BitVec 4) (k : Bool) (s : State) : (popRing q m k s).bat = s.bat := by
    unfold popRing injected; simp only []; repeat' split
    all_goals simp
@[simp] theorem popRing_usb (q : Fin 16) (m : BitVec 4) (k : Bool) (s : State) : (popRing q m k s).usb = s.usb := by
    unfold popRing injected; simp only []; repeat' split
    all_goals simp
@[simp] theorem popRing_load (q : Fin 16) (m : BitVec 4) (k : Bool) (s : State) : (popRing q m k s).load = s.load := by
    unfold popRing injected; simp only []; repeat' split
    all_goals simp
@[simp] theorem popRing_vcc (q : Fin 16) (m : BitVec 4) (k : Bool) (s : State) : (popRing q m k s).vcc = s.vcc := by
    unfold popRing injected; simp only []; repeat' split
    all_goals simp
@[simp] theorem popRing_vdrv (q : Fin 16) (m : BitVec 4) (k : Bool) (s : State) : (popRing q m k s).vdrv = s.vdrv := by
    unfold popRing injected; simp only []; repeat' split
    all_goals simp
@[simp] theorem popRing_sapling (q : Fin 16) (m : BitVec 4) (k : Bool) (s : State) : (popRing q m k s).sapling = s.sapling := by
    unfold popRing injected; simp only []; repeat' split
    all_goals simp
@[simp] theorem popRing_group (q : Fin 16) (m : BitVec 4) (k : Bool) (s : State) : (popRing q m k s).group = s.group := by
    unfold popRing injected; simp only []; repeat' split
    all_goals simp
@[simp] theorem popRing_conv (q : Fin 16) (m : BitVec 4) (k : Bool) (s : State) : (popRing q m k s).conv = s.conv := by
    unfold popRing injected; simp only []; repeat' split
    all_goals simp
@[simp] theorem popRing_therm (q : Fin 16) (m : BitVec 4) (k : Bool) (s : State) : (popRing q m k s).therm = s.therm := by
    unfold popRing injected; simp only []; repeat' split
    all_goals simp
@[simp] theorem popRing_eng (q : Fin 16) (m : BitVec 4) (k : Bool) (s : State) : (popRing q m k s).eng = s.eng := by
    unfold popRing injected; simp only []; repeat' split
    all_goals simp
@[simp] theorem popRing_fc_q8Seen (q : Fin 16) (m : BitVec 4) (k : Bool) (s : State) : (popRing q m k s).fc.q8Seen = s.fc.q8Seen := by
    unfold popRing injected; simp only []; repeat' split
    all_goals simp
@[simp] theorem popRing_warden (q : Fin 16) (m : BitVec 4) (k : Bool) (s : State) : (popRing q m k s).warden = s.warden := by
    unfold popRing injected; simp only []; repeat' split
    all_goals simp
@[simp] theorem popRing_host_released (q : Fin 16) (m : BitVec 4) (k : Bool) (s : State) : (popRing q m k s).host.released = s.host.released := by
    unfold popRing injected; simp only []; repeat' split
    all_goals simp
@[simp] theorem popRing_host_haddr (q : Fin 16) (m : BitVec 4) (k : Bool) (s : State) : (popRing q m k s).host.haddr = s.host.haddr := by
    unfold popRing injected; simp only []; repeat' split
    all_goals simp
@[simp] theorem popRing_host_pointer (q : Fin 16) (m : BitVec 4) (k : Bool) (s : State) : (popRing q m k s).host.pointer = s.host.pointer := by
    unfold popRing injected; simp only []; repeat' split
    all_goals simp
@[simp] theorem popRing_host_frameErr (q : Fin 16) (m : BitVec 4) (k : Bool) (s : State) : (popRing q m k s).host.frameErr = s.host.frameErr := by
    unfold popRing injected; simp only []; repeat' split
    all_goals simp
@[simp] theorem popRing_host_busErr (q : Fin 16) (m : BitVec 4) (k : Bool) (s : State) : (popRing q m k s).host.busErr = s.host.busErr := by
    unfold popRing injected; simp only []; repeat' split
    all_goals simp
@[simp] theorem popRing_host_hostErr (q : Fin 16) (m : BitVec 4) (k : Bool) (s : State) : (popRing q m k s).host.hostErr = s.host.hostErr := by
    unfold popRing injected; simp only []; repeat' split
    all_goals simp
@[simp] theorem popRing_host_spiErr (q : Fin 16) (m : BitVec 4) (k : Bool) (s : State) : (popRing q m k s).host.spiErr = s.host.spiErr := by
    unfold popRing injected; simp only []; repeat' split
    all_goals simp
@[simp] theorem popRing_host_hbusErr (q : Fin 16) (m : BitVec 4) (k : Bool) (s : State) : (popRing q m k s).host.hbusErr = s.host.hbusErr := by
    unfold popRing injected; simp only []; repeat' split
    all_goals simp
@[simp] theorem popRing_host_spiProto (q : Fin 16) (m : BitVec 4) (k : Bool) (s : State) : (popRing q m k s).host.spiProto = s.host.spiProto := by
    unfold popRing injected; simp only []; repeat' split
    all_goals simp
@[simp] theorem popRing_host_hbusProto (q : Fin 16) (m : BitVec 4) (k : Bool) (s : State) : (popRing q m k s).host.hbusProto = s.host.hbusProto := by
    unfold popRing injected; simp only []; repeat' split
    all_goals simp
@[simp] theorem popRing_host_tbHiSpi (q : Fin 16) (m : BitVec 4) (k : Bool) (s : State) : (popRing q m k s).host.tbHiSpi = s.host.tbHiSpi := by
    unfold popRing injected; simp only []; repeat' split
    all_goals simp
@[simp] theorem popRing_host_tbHiHbus (q : Fin 16) (m : BitVec 4) (k : Bool) (s : State) : (popRing q m k s).host.tbHiHbus = s.host.tbHiHbus := by
    unfold popRing injected; simp only []; repeat' split
    all_goals simp
@[simp] theorem popRing_host_feHiSpi (q : Fin 16) (m : BitVec 4) (k : Bool) (s : State) : (popRing q m k s).host.feHiSpi = s.host.feHiSpi := by
    unfold popRing injected; simp only []; repeat' split
    all_goals simp
@[simp] theorem popRing_host_feHiHbus (q : Fin 16) (m : BitVec 4) (k : Bool) (s : State) : (popRing q m k s).host.feHiHbus = s.host.feHiHbus := by
    unfold popRing injected; simp only []; repeat' split
    all_goals simp
@[simp] theorem popRing_host_scratch (q : Fin 16) (m : BitVec 4) (k : Bool) (s : State) : (popRing q m k s).host.scratch = s.host.scratch := by
    unfold popRing injected; simp only []; repeat' split
    all_goals simp
@[simp] theorem popRing_host_irqEn (q : Fin 16) (m : BitVec 4) (k : Bool) (s : State) : (popRing q m k s).host.irqEn = s.host.irqEn := by
    unfold popRing injected; simp only []; repeat' split
    all_goals simp
@[simp] theorem popRing_host_alertEn (q : Fin 16) (m : BitVec 4) (k : Bool) (s : State) : (popRing q m k s).host.alertEn = s.host.alertEn := by
    unfold popRing injected; simp only []; repeat' split
    all_goals simp
@[simp] theorem popRing_host_irqDue (q : Fin 16) (m : BitVec 4) (k : Bool) (s : State) : (popRing q m k s).host.irqDue = s.host.irqDue := by
    unfold popRing injected; simp only []; repeat' split
    all_goals simp
@[simp] theorem popRing_host_alertDue (q : Fin 16) (m : BitVec 4) (k : Bool) (s : State) : (popRing q m k s).host.alertDue = s.host.alertDue := by
    unfold popRing injected; simp only []; repeat' split
    all_goals simp
@[simp] theorem popRing_host_out (q : Fin 16) (m : BitVec 4) (k : Bool) (s : State) : (popRing q m k s).host.out = s.host.out := by
    unfold popRing injected; simp only []; repeat' split
    all_goals simp
@[simp] theorem popRing_host_acks (q : Fin 16) (m : BitVec 4) (k : Bool) (s : State) : (popRing q m k s).host.acks = s.host.acks := by
    unfold popRing injected; simp only []; repeat' split
    all_goals simp
@[simp] theorem popRing_mbox (q : Fin 16) (m : BitVec 4) (k : Bool) (s : State) : (popRing q m k s).mbox = s.mbox := by
    unfold popRing injected; simp only []; repeat' split
    all_goals simp
@[simp] theorem popRing_par (q : Fin 16) (m : BitVec 4) (k : Bool) (s : State) : (popRing q m k s).par = s.par := by
    unfold popRing injected; simp only []; repeat' split
    all_goals simp
@[simp] theorem popRing_otp (q : Fin 16) (m : BitVec 4) (k : Bool) (s : State) : (popRing q m k s).otp = s.otp := by
    unfold popRing injected; simp only []; repeat' split
    all_goals simp
@[simp] theorem popRing_snap (q : Fin 16) (m : BitVec 4) (k : Bool) (s : State) : (popRing q m k s).snap = s.snap := by
    unfold popRing injected; simp only []; repeat' split
    all_goals simp
@[simp] theorem popRing_stby (q : Fin 16) (m : BitVec 4) (k : Bool) (s : State) : (popRing q m k s).stby = s.stby := by
    unfold popRing injected; simp only []; repeat' split
    all_goals simp
@[simp] theorem popRing_sbus (q : Fin 16) (m : BitVec 4) (k : Bool) (s : State) : (popRing q m k s).sbus = s.sbus := by
    unfold popRing injected; simp only []; repeat' split
    all_goals simp

/-! ### A pop by Anvil of Q0, with no injection armed and the CRC good -/

theorem injected_none {k : Byte} {s : State} (h : s.fc.inject = []) : injected k s = (false, s) := by
  unfold injected; simp [h]

theorem unstall_ring_other {q j : Fin 16} (h : q ≠ j) (s : State) : (unstall q s).ring[j.val] = s.ring[j.val] := by
  have h2 : q.val ≠ j.val := fun e => h (Fin.ext e)
  simp [unstall, h2]

/-- What a pop of a good entry does: the consumer advances, stalled records follow, and Q0's cause CMDFREE may be set. -/
theorem popRing_good {q : Fin 16} {m : BitVec 4} {e : Entry} {i : Half} {s : State}
    (hh : headEntry q (consumerKey q m) s = some e) (hi : indexOf s.ring[q] (consumerKey q m) = some i)
    (he : e.crcOk = true) (hn : s.fc.inject = []) :
    popRing q m true s = cmdFree s (unstall q (putRing q (moveIndex (consumerKey q m) (i + 1) s.ring[q]) s)) := by
  unfold popRing
  simp only [hh, hi, injected_none hn, he]
  rfl

/-- Another ring is untouched by a pop that finds its entry good. -/
theorem popRing_ring_other {q j : Fin 16} {m : BitVec 4} {e : Entry} {i : Half} {s : State} (h : q ≠ j)
    (hh : headEntry q (consumerKey q m) s = some e) (hi : indexOf s.ring[q] (consumerKey q m) = some i)
    (he : e.crcOk = true) (hn : s.fc.inject = []) : (popRing q m true s).ring[j.val] = s.ring[j.val] := by
  rw [popRing_good hh hi he hn, cmdFree_ring, unstall_ring_other h, putRing_other h]

theorem popRing_fc {q : Fin 16} {m : BitVec 4} {e : Entry} {i : Half} {s : State}
    (hh : headEntry q (consumerKey q m) s = some e) (hi : indexOf s.ring[q] (consumerKey q m) = some i)
    (he : e.crcOk = true) (hn : s.fc.inject = []) : (popRing q m true s).fc = s.fc := by
  rw [popRing_good hh hi he hn]
  simp

end Sys2Proof.Machine
end

