-- ==== Sys2Proof/Laws/Mailbox.lean ====
section
/-! SUPPORT. How a mailbox command is taken and answered: one lemma that says which state its effect runs on, what that
state keeps, and what the response does. -/

namespace Sys2Proof.Machine
open Sys2Proof Sys2Proof.Safety

/-- The state once Anvil has popped the command: its effect runs on it. -/
def taken (s : State) : State := popRing 0 0 true { s with mbox := { s.mbox with q0By := s.mbox.q0By.drop 1 } }

theorem consumerKey_zero : consumerKey 0 0 = 0 := by decide

/-! ### States that differ in the rings alone -/

theorem same_of {s : State} (r : Vector Ring 16) (p : BitVec 13) (a : Bool) (q : List (BitVec 4)) :
    SameButRings s { s with ring := r, host := { s.host with intPend := p, alertArmed := a }, mbox := { s.mbox with q0By := q } } := rfl

theorem same_iff {s t : State} : SameButRings s t ↔ ∃ r p a q,
    t = { s with ring := r, host := { s.host with intPend := p, alertArmed := a }, mbox := { s.mbox with q0By := q } } := by
  constructor
  · intro h
    refine ⟨t.ring, t.host.intPend, t.host.alertArmed, t.mbox.q0By, ?_⟩
    rw [← h]
  · rintro ⟨r, p, a, q, rfl⟩
    rfl

theorem same_refl (s : State) : SameButRings s s := rfl

theorem same_trans {s t u : State} (h1 : SameButRings s t) (h2 : SameButRings t u) : SameButRings s u := by
  obtain ⟨r, p, a, q, rfl⟩ := same_iff.1 h1
  obtain ⟨r', p', a', q', rfl⟩ := same_iff.1 h2
  rfl

theorem same_putRing (q : Fin 16) (r : Ring) (s : State) : SameButRings s (putRing q r s) := rfl

theorem same_armAlert (b s : State) : SameButRings s (armAlert b s) := by
  unfold armAlert; simp only []; split <;> rfl

theorem same_setCause (n : Nat) (s : State) : SameButRings s (setCause n s) :=
  same_trans (by rfl) (same_armAlert _ _)

theorem same_unstall (q : Fin 16) (s : State) : SameButRings s (unstall q s) :=
  same_trans (same_putRing _ _ _) (same_armAlert _ _)

theorem same_cmdFree (b s : State) : SameButRings s (cmdFree b s) := by
  unfold cmdFree; split
  · exact same_setCause _ _
  · rfl

/-! ### The push of a response -/

theorem recordEntries_one (bs : List Byte) (h : bs.length = 256) : recordEntries 1 bs = 1 := by
  simp [recordEntries, h, entrySize]

theorem pad_length (n : Nat) (bs : List Byte) : (pad n bs).length = n := by
  simp [pad, slice]

theorem responseBytes_length (c : Cmd) (st : Nat) (d : List Byte) : (responseBytes c st d).length = 256 := by
  simp [responseBytes, pad_length]

theorem slice_all (bs : List Byte) (n : Nat) (h : bs.length = n) : slice bs 0 n = bs := by
  subst h; simp [slice]

/-- With a slot of Q1 free, a response becomes its newest entry and nothing but Q1 and the alert latch changes. -/
theorem respond_spec (c : Cmd) (st : Nat) (d : List Byte) {s : State} (hs : s.ring[1].stalled = [])
    (hl : s.ring[1].entries.length < 16) :
    SameButRings s (respond c st d s) ∧
    (respond c st d s).ring[1].entries = s.ring[1].entries ++ [⟨responseBytes c st d, true⟩] ∧
    (respond c st d s).ring[1].p = s.ring[1].p + 1 ∧
    ∀ j : Fin 16, 1 ≠ j → (respond c st d s).ring[j.val] = s.ring[j.val] := by
  have hb := responseBytes_length c st d
  have he := recordEntries_one _ hb
  have hp : respond c st d s = armAlert s (putRing 1 (place 1 (responseBytes c st d) s.ring[1]) s) := by
    apply pushRing_stall_place (by rfl) hs
    rw [he]; simp only [credit, capacity, capLog2]
    show 1 ≤ 16 - _
    have : s.ring[(1 : Fin 16).val].entries.length < 16 := hl
    omega
  rw [hp]
  refine ⟨same_trans (same_putRing _ _ _) (same_armAlert _ _), ?_, ?_, ?_⟩
  · simp [place, he, cutEntries, entrySize, slice_all _ _ hb]
  · simp [place, he]
  · intro j hj
    rw [armAlert_ring, putRing_other hj]

/-! ### The state a command runs on -/

section
variable {s : State} {bs : List Byte} {idx : Half}

theorem taken_eq (h : Offered s bs idx) : ∃ u : State, SameButRings s u ∧ u.ring = s.ring ∧
    taken s = cmdFree u (unstall 0 (putRing 0 (moveIndex 0 (idx + 1) s.ring[0]) u)) ∧ u.fc = s.fc := by
  obtain ⟨-, hh, hi, hn, -⟩ := h
  refine ⟨{ s with mbox := { s.mbox with q0By := s.mbox.q0By.drop 1 } }, rfl, rfl, ?_, rfl⟩
  have hp := popRing_good (q := 0) (m := 0) (e := ⟨bs, true⟩) (i := idx)
    (s := { s with mbox := { s.mbox with q0By := s.mbox.q0By.drop 1 } }) (by rw [consumerKey_zero]; exact hh)
    (by rw [consumerKey_zero]; exact hi) rfl hn
  rw [consumerKey_zero] at hp
  exact hp

/-- The taken state keeps everything but the rings, the pending causes, the alert latch and the doorbell list. -/
theorem taken_keeps (h : Offered s bs idx) : SameButRings s (taken s) := by
  obtain ⟨u, hu, -, ht, -⟩ := taken_eq h
  rw [ht]
  exact same_trans hu (same_trans (same_putRing _ _ _) (same_trans (same_unstall _ _) (same_cmdFree _ _)))

/-- Every ring but Q0 is as before. -/
theorem taken_ring (h : Offered s bs idx) (j : Fin 16) (hj : 0 ≠ j) : (taken s).ring[j.val] = s.ring[j.val] := by
  obtain ⟨u, -, hr, ht, -⟩ := taken_eq h
  rw [ht, cmdFree_ring, unstall_ring_other hj, putRing_other hj, hr]

theorem unstallN_cons (q : Fin 16) : ∀ (n : Nat) (r : Ring), (unstallN q n r).cons = r.cons
  | 0, _ => rfl
  | n + 1, r => by
    unfold unstallN
    split
    · rfl
    · split
      · rw [unstallN_cons q n]; rfl
      · rfl

theorem indexOf_move (m : BitVec 4) (i j : Half) : ∀ (r : Ring), indexOf r m = some j → indexOf (moveIndex m i r) m = some i := by
  intro r h
  unfold indexOf at h ⊢
  simp only [moveIndex, trim]
  revert h
  induction r.cons with
  | nil => intro h; simp at h
  | cons c cs ih =>
    intro h
    by_cases hc : c.1 = m
    · simp [hc]
    · simp [hc] at h ih ⊢
      exact ih _ h.choose_spec

/-- Anvil's index of Q0 is past the command. -/
theorem taken_index (h : Offered s bs idx) : indexOf (taken s).ring[0] 0 = some (idx + 1) := by
  obtain ⟨u, -, hr, ht, -⟩ := taken_eq h
  obtain ⟨-, -, hi, -⟩ := h
  have : (taken s).ring[(0 : Fin 16).val] = unstallN 0 (putRing 0 (moveIndex 0 (idx + 1) s.ring[0]) u).ring[(0 : Fin 16)].stalled.length
      (putRing 0 (moveIndex 0 (idx + 1) s.ring[0]) u).ring[(0 : Fin 16)] := by
    rw [ht, cmdFree_ring]; simp [unstall]
  have h2 : (putRing 0 (moveIndex 0 (idx + 1) s.ring[0]) u).ring[(0 : Fin 16)] = moveIndex 0 (idx + 1) s.ring[0] := putRing_self 0 _ _
  have h3 : indexOf (taken s).ring[(0 : Fin 16).val] 0 = indexOf (moveIndex 0 (idx + 1) s.ring[0]) 0 := by
    rw [this, h2]
    unfold indexOf
    rw [unstallN_cons]
  exact h3.trans (indexOf_move 0 (idx + 1) idx _ hi)

theorem taken_fc (h : Offered s bs idx) : (taken s).fc = s.fc := by
  obtain ⟨u, -, -, ht, hf⟩ := taken_eq h
  rw [ht]; simp [hf]

theorem taken_long (h : Offered s bs idx) : (taken s).mbox.long = s.mbox.long := by
  obtain ⟨r, p, a, q, ht⟩ := same_iff.1 (taken_keeps h)
  rw [ht]

/-- The row of a waiting command takes it, and it runs on the taken state. -/
theorem takeCommand_ok {op : Half} (h : Waits s bs idx op) (r : CmdRow) (hr : r.op = op.toNat)
    (ho : opcodes.contains op.toNat = true) (hl : r.lenOk (cmdOf bs idx) = true)
    (hs : r.stateOk (taken s) (cmdOf bs idx) = true) :
    takeCommand r s = perform r (cmdOf bs idx) (taken s) := by
  obtain ⟨hof, hfl, hop⟩ := h
  have hfc := taken_fc hof
  have hlo := taken_long hof
  have h1 := taken_ring hof 1 (by decide)
  have hq := hof
  obtain ⟨hm, hh, hi, hn, hd, h248, hcrc, -, htag⟩ := hq
  have hop' : BitVec.ofNat 16 (ofLe (slice bs 2 2)) = op := hop
  have hn' : (taken s).fc.inject = [] := by rw [hfc]; exact hn
  have h12 : check12 bs (cmdOf bs idx) true = none := by
    have : ¬ 248 < (cmdOf bs idx).len := by omega
    simp [check12, this, hcrc]
  have htag' : (tagsInUse (taken s)).contains (cmdOf bs idx).tag = false := by
    have : tagsInUse (taken s) = tagsInUse s := by
      unfold tagsInUse
      rw [hlo]
      have h1' : (taken s).ring[1] = s.ring[1] := h1
      rw [h1']
    rw [this]; exact htag
  have h37 : check37 r (taken s) (cmdOf bs idx) = none := by
    unfold check37
    rw [hfl, hop, htag', ho, hl, hs]
    rfl
  have ha : answerCmd r bs idx (s.mbox.q0By.headD 13) true (taken s) = perform r (cmdOf bs idx) (taken s) := by
    have hlt : ¬ 248 < (cmdOf bs idx).len := by omega
    unfold answerCmd
    rw [injected_none hn']
    simp [hlt, h12, h37]
  unfold takeCommand
  simp only [hm, hh, hi, hop']
  have htr : takesRow r op = true := by simp [takesRow, hr]
  have hst : holdsForStandby r s ⟨bs, true⟩ idx = false := by
    have : decide (s.dev = .standby) = false := by simp [hd]
    simp [holdsForStandby, this]
  simp only [htr, hst, injected_none hn]
  exact ha

/-- The answer of a waiting command whose effect leaves Q1 as it is. -/
theorem takeCommand_run {op : Half} (h : Waits s bs idx op) (r : CmdRow) (hr : r.op = op.toNat)
    (ho : opcodes.contains op.toNat = true) (hl : r.lenOk (cmdOf bs idx) = true)
    (hs : r.stateOk (taken s) (cmdOf bs idx) = true) :
    takeCommand r s = respond (cmdOf bs idx) (r.run (cmdOf bs idx) (taken s)).status (r.run (cmdOf bs idx) (taken s)).data
      (r.run (cmdOf bs idx) (taken s)).state := by
  rw [takeCommand_ok h r hr ho hl hs]
  have : (cmdOf bs idx).dry = false := by simp [Cmd.dry, h.2.1]
  simp [perform, this]

/-- A waiting command completes with its row's status and data, where its effect leaves Q0 and Q1 as they are. -/
theorem answered_run {op : Half} (h : Waits s bs idx op) (c : Instr) (r : CmdRow) (hc : exec c s = .next (takeCommand r s))
    (hr : r.op = op.toNat) (ho : opcodes.contains op.toNat = true) (hl : r.lenOk (cmdOf bs idx) = true)
    (hs : r.stateOk (taken s) (cmdOf bs idx) = true)
    (h0 : (r.run (cmdOf bs idx) (taken s)).state.ring[0] = (taken s).ring[0])
    (h1 : (r.run (cmdOf bs idx) (taken s)).state.ring[1] = s.ring[1]) (P : State → Prop)
    (hP : P (respond (cmdOf bs idx) (r.run (cmdOf bs idx) (taken s)).status (r.run (cmdOf bs idx) (taken s)).data
      (r.run (cmdOf bs idx) (taken s)).state)) :
    Answered c s bs idx (r.run (cmdOf bs idx) (taken s)).status (r.run (cmdOf bs idx) (taken s)).data P := by
  have hm := h.1.1
  simp only [mayTake, Bool.and_eq_true, decide_eq_true_eq, List.isEmpty_iff] at hm
  have e := respond_spec (cmdOf bs idx) (r.run (cmdOf bs idx) (taken s)).status (r.run (cmdOf bs idx) (taken s)).data
    (s := (r.run (cmdOf bs idx) (taken s)).state) (by rw [h1]; exact hm.2) (by rw [h1]; exact hm.1.2)
  refine ⟨_, hc, ?_, ?_, ?_, ?_⟩
  · rw [takeCommand_run h r hr ho hl hs, e.2.1, h1]
  · rw [takeCommand_run h r hr ho hl hs, e.2.2.1, h1]
  · rw [takeCommand_run h r hr ho hl hs]
    have := e.2.2.2 0 (by decide)
    rw [show (respond (cmdOf bs idx) (r.run (cmdOf bs idx) (taken s)).status (r.run (cmdOf bs idx) (taken s)).data
      (r.run (cmdOf bs idx) (taken s)).state).ring[0] = (r.run (cmdOf bs idx) (taken s)).state.ring[0] from this, h0]
    exact taken_index h.1
  · rw [takeCommand_run h r hr ho hl hs]; exact hP

end
end Sys2Proof.Machine
end

