-- ==== Sys2Proof/Laws/Memory.lean ====
section
/-! SUPPORT. The addressed buffers: every operation keeps the canonical form; a read after a write gives the byte
written at its address and the old byte elsewhere; the shipped one-time memory has the form. -/

namespace Sys2Proof.Machine
open Sys2Proof

theorem memWfFrom_mono {lo lo' : Nat} (h : lo' ≤ lo) : ∀ {m : Mem}, memWfFrom lo m = true → memWfFrom lo' m = true
  | [], _ => rfl
  | (k, b) :: m, hm => by
    simp only [memWfFrom, Bool.and_eq_true, decide_eq_true_eq] at hm ⊢
    exact ⟨⟨by omega, hm.1.2⟩, hm.2⟩

theorem memWrite_wfFrom {a : Nat} {v : Byte} : ∀ {lo : Nat} {m : Mem}, lo ≤ a → memWfFrom lo m = true →
    memWfFrom lo (memWrite m a v) = true
  | lo, [], ha, _ => by
    unfold memWrite
    split
    · rfl
    · next hv => simp only [memWfFrom, decide_eq_true ha, decide_eq_true hv, Bool.and_self]
  | lo, (k, b) :: m, ha, hm => by
    simp only [memWfFrom, Bool.and_eq_true, decide_eq_true_eq] at hm
    obtain ⟨⟨hk, hb⟩, ht⟩ := hm
    unfold memWrite
    split
    · next hlt =>
      simp only [memWfFrom, Bool.and_eq_true, decide_eq_true_eq]
      exact ⟨⟨hk, hb⟩, memWrite_wfFrom (by omega) ht⟩
    · next hlt =>
      split
      · next he =>
        subst he
        split
        · exact memWfFrom_mono (by omega) ht
        · next hv => simp only [memWfFrom, decide_eq_true ha, decide_eq_true hv, ht, Bool.and_self]
      · next hne =>
        split
        · simp only [memWfFrom, decide_eq_true hk, decide_eq_true hb, ht, Bool.and_self]
        · next hv =>
          simp only [memWfFrom, Bool.and_eq_true, decide_eq_true_eq]
          exact ⟨⟨ha, hv⟩, ⟨by omega, hb⟩, ht⟩

/-- A write of one byte keeps the canonical form. -/
theorem memWrite_wf {m : Mem} (a : Nat) (v : Byte) (h : Memory.wf m = true) : Memory.wf (memWrite m a v) = true :=
  memWrite_wfFrom (Nat.zero_le _) h

/-- A write of a run of bytes keeps the canonical form. -/
theorem memWriteN_wf (bs : List Byte) : ∀ {m : Mem} (a : Nat), Memory.wf m = true → Memory.wf (memWriteN m a bs) = true := by
  induction bs with
  | nil => intro m a h; exact h
  | cons b bs ih => intro m a h; exact ih (a + 1) (memWrite_wf a b h)

theorem memRead_below : ∀ {lo : Nat} {m : Mem} {a : Nat}, a < lo → memWfFrom lo m = true → memRead m a = 0
  | _, [], _, _, _ => rfl
  | lo, (k, b) :: m, a, ha, hm => by
    simp only [memWfFrom, Bool.and_eq_true, decide_eq_true_eq] at hm
    have : k ≠ a := by omega
    simp [memRead, this]
    exact memRead_below (by omega) hm.2

theorem memRead_memWrite_sameFrom {a : Nat} {v : Byte} : ∀ {lo : Nat} {m : Mem}, memWfFrom lo m = true →
    memRead (memWrite m a v) a = v
  | _, [], _ => by
    unfold memWrite
    split
    · next hv => exact hv.symm
    · simp [memRead]
  | lo, (k, b) :: m, hm => by
    simp only [memWfFrom, Bool.and_eq_true, decide_eq_true_eq] at hm
    unfold memWrite
    split
    · next hlt =>
      have : k ≠ a := by omega
      simp [memRead, this]
      exact memRead_memWrite_sameFrom hm.2
    · split
      · next he =>
        subst he
        split
        · next hv => subst hv; exact memRead_below (by omega) hm.2
        · simp [memRead]
      · next hne =>
        split
        · next hv =>
          subst hv
          simp [memRead, hne]
          exact memRead_below (by omega) hm.2
        · simp [memRead]

/-- A read of the written address gives the byte written. -/
theorem memRead_memWrite_same {m : Mem} (a : Nat) (v : Byte) (h : Memory.wf m = true) : memRead (memWrite m a v) a = v :=
  memRead_memWrite_sameFrom h

/-- A read of another address gives what it gave before. -/
theorem memRead_memWrite_other {a b : Nat} {v : Byte} (h : a ≠ b) : ∀ {m : Mem}, memRead (memWrite m a v) b = memRead m b
  | [] => by
    unfold memWrite
    split
    · rfl
    · simp [memRead, h]
  | (k, x) :: m => by
    unfold memWrite
    split
    · by_cases hk : k = b
      · simp [memRead, hk]
      · simp [memRead, hk]; exact memRead_memWrite_other h
    · split
      · next he =>
        subst he
        split
        · simp [memRead, h]
        · simp [memRead, h]
      · split
        · rfl
        · simp [memRead, h]

/-- A read outside a run of written bytes gives what it gave before. -/
theorem memRead_memWriteN_other (bs : List Byte) : ∀ {m : Mem} {a b : Nat}, (b < a ∨ a + bs.length ≤ b) →
    memRead (memWriteN m a bs) b = memRead m b := by
  induction bs with
  | nil => intro m a b _; rfl
  | cons x bs ih =>
    intro m a b h
    have hl : (x :: bs).length = bs.length + 1 := rfl
    rw [hl] at h
    show memRead (memWriteN (memWrite m a x) (a + 1) bs) b = _
    rw [ih (by omega), memRead_memWrite_other (by omega)]

/-- A byte other than 0 written to any list reads back. -/
theorem memRead_memWrite_nonzero {a : Nat} {v : Byte} (hv : v ≠ 0) : ∀ {m : Mem}, memRead (memWrite m a v) a = v
  | [] => by
    rw [memWrite, if_neg hv]
    simp [memRead]
  | (k, b) :: m => by
    rw [memWrite]
    by_cases h1 : k < a
    · simp [h1, memRead, Nat.ne_of_lt h1, memRead_memWrite_nonzero hv]
    · by_cases h2 : k = a
      · rw [if_neg h1, if_pos h2, if_neg hv]
        simp [memRead]
      · rw [if_neg h1, if_neg h2, if_neg hv]
        simp [memRead]

/-- A burn, the bits of a byte or-ed in, returns no bit of any byte to 0. -/
theorem memWrite_or_kept (m : Mem) (a c : Nat) (b : Byte) :
    memRead m c &&& ~~~(memRead (memWrite m a (memRead m a ||| b)) c) = 0 := by
  by_cases h : a = c
  · subst h
    by_cases hv : memRead m a ||| b = 0
    · have h0 : memRead m a = 0 := by
        apply BitVec.eq_of_getLsbD_eq
        intro i hi
        have h1 := congrArg (fun x : Byte => x.getLsbD i) hv
        simp at h1
        simp [h1.1]
      simp [h0]
    · rw [memRead_memWrite_nonzero hv]
      apply BitVec.eq_of_getLsbD_eq
      intro i hi
      cases h1 : (memRead m a).getLsbD i <;> simp [h1]
  · rw [memRead_memWrite_other h]
    simp

/-- The one-time memory as the part ships has the canonical form. -/
theorem shippedOtp_wf : Memory.wf shippedOtp = true := by decide

end Sys2Proof.Machine
end

