-- ==== Sys2Proof/Laws/PerInstr.lean ====
section
/-! SUPPORT. One law per command, as syntax: the table gives no row any bits, so no word spells it (log 4). -/

namespace Sys2Proof.Laws.NoWord

/-- No word of any length spells the command. -/
def Statement (i : Instr) : Prop := ∀ nbits w : Nat, decodeTableWord nbits w ≠ some i

/-- The decoder answers none on every word. -/
theorem all (i : Instr) : Statement i := fun _ _ h => nomatch h

theorem echo : Statement (.echo) := all _
theorem deviceInfo : Statement (.deviceInfo) := all _
theorem reset : Statement (.reset) := all _
theorem shipMode : Statement (.shipMode) := all _
theorem counterClear : Statement (.counterClear) := all _
theorem sbusTransfer (lost : Nat) (outcome : SbusEnd) : Statement (.sbusTransfer lost outcome) := all _
theorem paramSet : Statement (.paramSet) := all _
theorem paramGet : Statement (.paramGet) := all _
theorem paramRevert : Statement (.paramRevert) := all _
theorem imageStage : Statement (.imageStage) := all _
theorem imageTrial : Statement (.imageTrial) := all _
theorem imageBurn : Statement (.imageBurn) := all _
theorem imageStatus : Statement (.imageStatus) := all _
theorem cBurn : Statement (.cBurn) := all _
theorem lockBurn : Statement (.lockBurn) := all _
theorem channelControl : Statement (.channelControl) := all _
theorem anneal : Statement (.anneal) := all _
theorem loopRead : Statement (.loopRead) := all _
theorem sourceRead : Statement (.sourceRead) := all _
theorem batteryRead : Statement (.batteryRead) := all _
theorem chargerStatus : Statement (.chargerStatus) := all _
theorem chargerClear : Statement (.chargerClear) := all _
theorem equalise : Statement (.equalise) := all _
theorem cellRead : Statement (.cellRead) := all _
theorem ovpClear : Statement (.ovpClear) := all _
theorem usbRead : Statement (.usbRead) := all _
theorem loadSet : Statement (.loadSet) := all _
theorem loadClear : Statement (.loadClear) := all _
theorem loadRead : Statement (.loadRead) := all _
theorem assaySample (codes : List (BitVec 12)) (ran : Bool) : Statement (.assaySample codes ran) := all _
theorem assayStatus : Statement (.assayStatus) := all _
theorem telemetryNow : Statement (.telemetryNow) := all _
theorem thermalRead : Statement (.thermalRead) := all _
theorem faultList : Statement (.faultList) := all _
theorem faultClear : Statement (.faultClear) := all _
theorem attest : Statement (.attest) := all _
theorem patchStage : Statement (.patchStage) := all _
theorem patchApply : Statement (.patchApply) := all _
theorem keyRevoke : Statement (.keyRevoke) := all _
theorem faultInject : Statement (.faultInject) := all _
theorem testDac (codes : List (BitVec 12)) (ran : Bool) : Statement (.testDac codes ran) := all _
theorem otpBurnComplete (ok enrolOk : Bool) : Statement (.otpBurnComplete ok enrolOk) := all _
theorem burnVccLow (vcc : Q) (wordsDone : Nat) : Statement (.burnVccLow vcc wordsDone) := all _
theorem q0Doorbell (bus : HostBus) (count : BitVec 3) : Statement (.q0Doorbell bus count) := all _
theorem q0WindowWrite (offset : BitVec 10) (data : List Byte) : Statement (.q0WindowWrite offset data) := all _
theorem ringWindowRead (bus : HostBus) (ring : Fin 3) (offset : BitVec 10) : Statement (.ringWindowRead bus ring offset) := all _
theorem cidxWrite (bus : HostBus) (ring : Fin 3) (cidx : Half) : Statement (.cidxWrite bus ring cidx) := all _
theorem feValidRearm : Statement (.feValidRearm) := all _
theorem intPendClear (mask : BitVec 13) : Statement (.intPendClear mask) := all _
theorem intForce (mask : BitVec 13) : Statement (.intForce mask) := all _
theorem ringFlagClear (ring : Fin 16) (mask : BitVec 3) : Statement (.ringFlagClear ring mask) := all _
theorem hostErrClear : Statement (.hostErrClear) := all _
theorem tbLoRead (bus : HostBus) : Statement (.tbLoRead bus) := all _
theorem registerWrite (bus : HostBus) (addr : Half) (value : Word) (bytes : BitVec 4) : Statement (.registerWrite bus addr value bytes) := all _
theorem hostBusError (bus : HostBus) (addr : Half) (isWrite : Bool) : Statement (.hostBusError bus addr isWrite) := all _
theorem alertResponse (rival : Option (BitVec 7)) : Statement (.alertResponse rival) := all _
theorem spiStatusPoll : Statement (.spiStatusPoll) := all _
theorem spiFrame (mosi : List Byte) : Statement (.spiFrame mosi) := all _
theorem spiFrameEndedEarly (mosi : List Byte) (partialBits : BitVec 3) : Statement (.spiFrameEndedEarly mosi partialBits) := all _
theorem hbusWrite (pointer : Half) (data : List Byte) : Statement (.hbusWrite pointer data) := all _
theorem hbusPointerSet (pointer : Half) : Statement (.hbusPointerSet pointer) := all _
theorem hbusReadFromPointer (pointer : Half) (count : Nat) : Statement (.hbusReadFromPointer pointer count) := all _
theorem hbusCurrentPointerRead (count : Nat) : Statement (.hbusCurrentPointerRead count) := all _
theorem hbusProtocolError (pointer : Option Half) (written : List Byte) (readBytes : Nat) (ackCut : Bool) : Statement (.hbusProtocolError pointer written readBytes ackCut) := all _
theorem hbusClockLowTimeout (pointer : Option Half) (written : List Byte) (readBytes : Nat) : Statement (.hbusClockLowTimeout pointer written readBytes) := all _
theorem sbusClockLowTimeout (sclReleased : Bool) (pulses : Option Nat) : Statement (.sbusClockLowTimeout sclReleased pulses) := all _
theorem powerOnReset (low : Q) : Statement (.powerOnReset low) := all _
theorem aonPowerLoss (high : Q) : Statement (.aonPowerLoss high) := all _
theorem vccValid (vcc : Q) (sense : List Q) : Statement (.vccValid vcc sense) := all _
theorem brownOut (high : Q) : Statement (.brownOut high) := all _
theorem resetPin : Statement (.resetPin) := all _
theorem hostReset : Statement (.hostReset) := all _
theorem wardenRelease (crystalValid : Bool) : Statement (.wardenRelease crystalValid) := all _
theorem wardenSelfTestComplete (pass : Bool) (straps : BitVec 2) : Statement (.wardenSelfTestComplete pass straps) := all _
theorem hostTargetRelease : Statement (.hostTargetRelease) := all _
theorem anvilReady (vRide : Q) : Statement (.anvilReady vRide) := all _
theorem otpReadPass (marginal : List Nat) (vcc : Q) : Statement (.otpReadPass marginal vcc) := all _
theorem shipModeEntry : Statement (.shipModeEntry) := all _
theorem wakeComparatorArm (port : Fin 8) (high : Q) : Statement (.wakeComparatorArm port high) := all _
theorem shipWakeSource (port : Fin 8) (low : Q) : Statement (.shipWakeSource port low) := all _
theorem reedHoldBegin : Statement (.reedHoldBegin) := all _
theorem reedHoldEnd : Statement (.reedHoldEnd) := all _
theorem reedHold2s : Statement (.reedHold2s) := all _
theorem clearingReset : Statement (.clearingReset) := all _
theorem clearingResetEnd : Statement (.clearingResetEnd) := all _
theorem reedRearm : Statement (.reedRearm) := all _
theorem standbyEntry : Statement (.standbyEntry) := all _
theorem standbyExit (cause : StandbyCause) : Statement (.standbyExit cause) := all _
theorem wakeWindowOpen : Statement (.wakeWindowOpen) := all _
theorem wakeWindowEnd : Statement (.wakeWindowEnd) := all _
theorem standbyWatchdogMiss (anvil : Bool) : Statement (.standbyWatchdogMiss anvil) := all _
theorem controlFrame (hung : BitVec 12) (bank : List Q) : Statement (.controlFrame hung bank) := all _
theorem policyFrame (hostReading : Bool) : Statement (.policyFrame hostReading) := all _
theorem wardenFrame : Statement (.wardenFrame) := all _
theorem engineFailureDeclared (e : Fin 12) : Statement (.engineFailureDeclared e) := all _
theorem engineRestart (e : Fin 12) : Statement (.engineRestart e) := all _
theorem engineVerified (e : Fin 12) : Statement (.engineVerified e) := all _
theorem anvilWatchdogMiss : Statement (.anvilWatchdogMiss) := all _
theorem anvilRestart : Statement (.anvilRestart) := all _
theorem wardenWatchdogExpiry : Statement (.wardenWatchdogExpiry) := all _
theorem eccError (ringSram : Bool) (index : Fin 16) (master : BitVec 4) (double : Bool) (addr : Word) (access : Access) (syndrome : Word) : Statement (.eccError ringSram index master double addr access syndrome) := all _
theorem internalBusError (master : BitVec 4) (access : Access) (addr : Word) : Statement (.internalBusError master access addr) := all _
theorem crystalLost : Statement (.crystalLost) := all _
theorem ringPush (ring : Fin 16) (master : BitVec 4) (entry : List Byte) : Statement (.ringPush ring master entry) := all _
theorem ringPop (ring : Fin 16) (consumer : BitVec 4) (crcOk : Bool) : Statement (.ringPop ring consumer crcOk) := all _
theorem consumerIndexWrite (ring : Fin 16) (consumer : BitVec 4) (index : Half) : Statement (.consumerIndexWrite ring consumer index) := all _
theorem stalledPush (ring : Fin 16) : Statement (.stalledPush ring) := all _
theorem holdRelease : Statement (.holdRelease) := all _
theorem faultReport (r : Report) : Statement (.faultReport r) := all _
theorem wardenTakeReport : Statement (.wardenTakeReport) := all _
theorem configRecordTake : Statement (.configRecordTake) := all _
theorem assayTrigger (g : Fin 4) (entry : Fin 60) (after : Nat) : Statement (.assayTrigger g entry after) := all _
theorem assaySetStart (g : Fin 4) (after : Nat) : Statement (.assaySetStart g after) := all _
theorem assaySetComplete (g : Fin 4) (codes : List (BitVec 12)) (parityBad : BitVec 4) : Statement (.assaySetComplete g codes parityBad) := all _
theorem urgentRequest (g : Fin 4) (hardware : Bool) (master : BitVec 4) (inputs : List (Fin 48)) (port : Option (Fin 4)) (late : Bool) : Statement (.urgentRequest g hardware master inputs port late) := all _
theorem assaySetRestart (g : Fin 4) : Statement (.assaySetRestart g) := all _
theorem backgroundCalibration (c : Fin 16) (ref0 ref1 ref2 : BitVec 12) : Statement (.backgroundCalibration c ref0 ref1 ref2) := all _
theorem converterCheck (g : Fin 4) (codes : List (List (BitVec 12))) : Statement (.converterCheck g codes) := all _
theorem pathCheck (g : Fin 4) (code : BitVec 12) : Statement (.pathCheck g code) := all _
theorem ringPeriodBoundary (ch : Fin 16) (sample : PeriodSample) : Statement (.ringPeriodBoundary ch sample) := all _
theorem peakLimit (phase : Fin 28) (at_ : Half) (still : Bool) : Statement (.peakLimit phase at_ still) := all _
theorem hiccup (ch : Fin 16) : Statement (.hiccup ch) := all _
theorem hiccupOffTimeEnd (ch : Fin 16) (measured : Q) : Statement (.hiccupOffTimeEnd ch measured) := all _
theorem softStartComplete (ch : Fin 16) : Statement (.softStartComplete ch) := all _
theorem retryResetInterval (ch : Fin 16) : Statement (.retryResetInterval ch) := all _
theorem phaseFailure (phase : Fin 28) (cause : BitVec 3) : Statement (.phaseFailure phase cause) := all _
theorem probationComplete (phase : Fin 28) : Statement (.probationComplete phase) := all _
theorem profileNotReached (phase : Fin 28) (edge : Fin 4) : Statement (.profileNotReached phase edge) := all _
theorem vdrvUndervoltage (lowest : Q) : Statement (.vdrvUndervoltage lowest) := all _
theorem vdrvRecovery : Statement (.vdrvRecovery) := all _
theorem bootstrapUndervoltage (phase : Fin 28) (rideLeg : Bool) : Statement (.bootstrapUndervoltage phase rideLeg) := all _
theorem rideOvervoltage (peak : Q) : Statement (.rideOvervoltage peak) := all _
theorem rideOvervoltageRelease : Statement (.rideOvervoltageRelease) := all _
theorem tierChange (tier : Fin 5) : Statement (.tierChange tier) := all _
theorem loadShed (cls : Fin 8) : Statement (.loadShed cls) := all _
theorem shedRestore (cls : Fin 8) : Statement (.shedRestore cls) := all _
theorem targetReached : Statement (.targetReached) := all _
theorem taprootEngage (vRide vBat : Q) : Statement (.taprootEngage vRide vBat) := all _
theorem taprootColdRampEnd : Statement (.taprootColdRampEnd) := all _
theorem taprootBlock : Statement (.taprootBlock) := all _
theorem taprootRelease (vBat : Q) : Statement (.taprootRelease vBat) := all _
theorem taprootOvercurrent (vBat : Q) : Statement (.taprootOvercurrent vBat) := all _
theorem taprootRearm : Statement (.taprootRearm) := all _
theorem taprootUndervoltage (below : Bool) : Statement (.taprootUndervoltage below) := all _
theorem sourceWithdrawal (usb : Bool) (port : Fin 8) (v : Q) : Statement (.sourceWithdrawal usb port v) := all _
theorem handoverComplete (usb : Bool) (port : Fin 8) (present : Bool) : Statement (.handoverComplete usb port present) := all _
theorem inputPresent (port : Fin 8) : Statement (.inputPresent port) := all _
theorem inputLost (port : Fin 8) : Statement (.inputLost port) := all _
theorem debounceComplete (port : Fin 8) : Statement (.debounceComplete port) := all _
theorem qualificationComplete (port : Fin 8) : Statement (.qualificationComplete port) := all _
theorem qualificationBlockEnd (port : Fin 8) : Statement (.qualificationBlockEnd port) := all _
theorem classificationObservationEnd (port : Fin 8) : Statement (.classificationObservationEnd port) := all _
theorem classDecided (port : Fin 8) : Statement (.classDecided port) := all _
theorem rampingComplete (usb : Bool) (port : Fin 8) : Statement (.rampingComplete usb port) := all _
theorem sourceOvervoltageStop (port : Fin 8) (peak : Q) : Statement (.sourceOvervoltageStop port peak) := all _
theorem sourceOvervoltageRelease (port : Fin 8) : Statement (.sourceOvervoltageRelease port) := all _
theorem perturbObserveStep (port : Fin 8) : Statement (.perturbObserveStep port) := all _
theorem swellEvaluation (port : Fin 8) : Statement (.swellEvaluation port) := all _
theorem globalScan (port : Fin 8) : Statement (.globalScan port) := all _
theorem scanEnd (port : Fin 8) : Statement (.scanEnd port) := all _
theorem idleEntry (port : Fin 8) : Statement (.idleEntry port) := all _
theorem idleTrial (port : Fin 8) (vPort : Q) : Statement (.idleTrial port vPort) := all _
theorem idleTrialResult (port : Fin 8) : Statement (.idleTrialResult port) := all _
theorem waveCycleEnd (port : Fin 8) : Statement (.waveCycleEnd port) := all _
theorem wavePause (port : Fin 8) : Statement (.wavePause port) := all _
theorem waveResume (port : Fin 8) : Statement (.waveResume port) := all _
theorem swellProfileExpiry (port : Fin 8) : Statement (.swellProfileExpiry port) := all _
theorem transitionTimerExpiry (ch : Fin 16) : Statement (.transitionTimerExpiry ch) := all _
theorem annealingGrant (ch : Fin 16) : Statement (.annealingGrant ch) := all _
theorem annealingDeferred (ch : Fin 16) : Statement (.annealingDeferred ch) := all _
theorem annealingInjectionStart (ch : Fin 16) : Statement (.annealingInjectionStart ch) := all _
theorem annealingInjectionEnd (ch : Fin 16) : Statement (.annealingInjectionEnd ch) := all _
theorem annealingFitComplete (ch : Fin 16) (responses : List Response) : Statement (.annealingFitComplete ch responses) := all _
theorem annealingVerificationEnd (ch : Fin 16) : Statement (.annealingVerificationEnd ch) := all _
theorem batteryQualificationEnd (port : Fin 4) (selfTest : Bool) : Statement (.batteryQualificationEnd port selfTest) := all _
theorem qualificationRetry (port : Fin 4) : Statement (.qualificationRetry port) := all _
theorem chargeTimerExpiry (port : Fin 4) (timer : ChargeTimer) : Statement (.chargeTimerExpiry port timer) := all _
theorem pulseEnd (port : Fin 4) : Statement (.pulseEnd port) := all _
theorem restEnd (port : Fin 4) : Statement (.restEnd port) := all _
theorem restDisturbed (port : Fin 4) : Statement (.restDisturbed port) := all _
theorem gladeFitComplete (port : Fin 4) : Statement (.gladeFitComplete port) := all _
theorem probeRest (port : Fin 4) : Statement (.probeRest port) := all _
theorem chargePauseTimeout (port : Fin 4) : Statement (.chargePauseTimeout port) := all _
theorem equaliseDue (port : Fin 4) : Statement (.equaliseDue port) := all _
theorem dischargeCutoff (port : Fin 4) : Statement (.dischargeCutoff port) := all _
theorem dischargeRestore (port : Fin 4) : Statement (.dischargeRestore port) := all _
theorem reserveRelease (port : Fin 4) : Statement (.reserveRelease port) := all _
theorem primaryChargeCurrent (port : Fin 4) (peak : Q) : Statement (.primaryChargeCurrent port peak) := all _
theorem cellOvpTrip (port : Fin 4) (segment : Fin 16) : Statement (.cellOvpTrip port segment) := all _
theorem ovpClearable (port : Fin 4) : Statement (.ovpClearable port) := all _
theorem openTapTest (port : Fin 4) (moved : BitVec 16) : Statement (.openTapTest port moved) := all _
theorem tapReversed (port : Fin 4) (segment : Fin 16) : Statement (.tapReversed port segment) := all _
theorem balanceSlot (port : Fin 4) : Statement (.balanceSlot port) := all _
theorem balanceWriteTimeout (port : Fin 4) : Statement (.balanceWriteTimeout port) := all _
theorem ccChange (port : Fin 4) (view : CcView) : Statement (.ccChange port view) := all _
theorem typecDebounceExpiry (port : Fin 4) (vbusSafe5V vconnInOk : Bool) : Statement (.typecDebounceExpiry port vbusSafe5V vconnInOk) := all _
theorem drpToggle (port : Fin 4) : Statement (.drpToggle port) := all _
theorem tryTimerExpiry (port : Fin 4) (partnerSeen vconnInOk : Bool) : Statement (.tryTimerExpiry port partnerSeen vconnInOk) := all _
theorem errorRecoveryEnd (port : Fin 4) : Statement (.errorRecoveryEnd port) := all _
theorem sinkWaitCapTimeout (port : Fin 4) : Statement (.sinkWaitCapTimeout port) := all _
theorem pdMessageReceived (port : Fin 4) (sopPrime : Bool) (id : BitVec 3) (msg : PdMsg) (entry : List Byte) : Statement (.pdMessageReceived port sopPrime id msg entry) := all _
theorem pdTransmit (port : Fin 4) (receiving : Bool) (goodCrc : Bool) : Statement (.pdTransmit port receiving goodCrc) := all _
theorem pdRetry (port : Fin 4) (goodCrc : Bool) : Statement (.pdRetry port goodCrc) := all _
theorem sourceCapabilities (port : Fin 4) (objects : List Word) (epr : Bool) : Statement (.sourceCapabilities port objects epr) := all _
theorem sinkPsRdy (port : Fin 4) (vbus : Q) : Statement (.sinkPsRdy port vbus) := all _
theorem sourceRequest (port : Fin 4) (rdo : Word) : Statement (.sourceRequest port rdo) := all _
theorem sourceTransitionStart (port : Fin 4) : Statement (.sourceTransitionStart port) := all _
theorem ppsRequestPeriod (port : Fin 4) : Statement (.ppsRequestPeriod port) := all _
theorem eprKeepalive (port : Fin 4) : Statement (.eprKeepalive port) := all _
theorem ppsTimeout (port : Fin 4) : Statement (.ppsTimeout port) := all _
theorem senderResponseTimeout (port : Fin 4) : Statement (.senderResponseTimeout port) := all _
theorem prSwap (port : Fin 4) : Statement (.prSwap port) := all _
theorem prSwapInitiate (port : Fin 4) : Statement (.prSwapInitiate port) := all _
theorem drSwap (port : Fin 4) : Statement (.drSwap port) := all _
theorem vconnSwap (port : Fin 4) (vconnInOk : Bool) : Statement (.vconnSwap port vconnInOk) := all _
theorem softResetReceived (port : Fin 4) (sopPrime : Bool) : Statement (.softResetReceived port sopPrime) := all _
theorem discoverIdentity (port : Fin 4) (towardsCable : Bool) (cable : Option (Fin 4)) : Statement (.discoverIdentity port towardsCable cable) := all _
theorem vdmReceived (port : Fin 4) (structured : Bool) : Statement (.vdmReceived port structured) := all _
theorem hardResetReceived (port : Fin 4) (sent : Bool) (partnerDrivesVbus : Bool) : Statement (.hardResetReceived port sent partnerDrivesVbus) := all _
theorem srcRecoverEnd (port : Fin 4) (vbus : Q) (vconnInOk : Bool) : Statement (.srcRecoverEnd port vbus vconnInOk) := all _
theorem hardResetVbusTimeout (port : Fin 4) : Statement (.hardResetVbusTimeout port) := all _
theorem vbusDischargeDone (port : Fin 4) : Statement (.vbusDischargeDone port) := all _
theorem sinkOvervoltage (port : Fin 4) (peak : Q) : Statement (.sinkOvervoltage port peak) := all _
theorem vconnOvercurrent (port : Fin 4) : Statement (.vconnOvercurrent port) := all _
theorem loadSoftStartComplete (port : Fin 32) (vOut : Q) : Statement (.loadSoftStartComplete port vOut) := all _
theorem loadSoftStartTimeout (port : Fin 32) (peak : Q) : Statement (.loadSoftStartTimeout port peak) := all _
theorem loadLimitingEntry (port : Fin 32) (i : Q) : Statement (.loadLimitingEntry port i) := all _
theorem loadLimitingExit (port : Fin 32) (i : Q) : Statement (.loadLimitingExit port i) := all _
theorem loadFaultTimerExpiry (port : Fin 32) (peak : Q) : Statement (.loadFaultTimerExpiry port peak) := all _
theorem loadFastTrip (port : Fin 32) (peak : Q) : Statement (.loadFastTrip port peak) := all _
theorem loadRetryOffTimeEnd (port : Fin 32) : Statement (.loadRetryOffTimeEnd port) := all _
theorem loadRetryResetInterval (port : Fin 32) : Statement (.loadRetryResetInterval port) := all _
theorem rideBelowLoadMinimum (v : Q) : Statement (.rideBelowLoadMinimum v) := all _
theorem rideAboveLoadRelease (v : Q) : Statement (.rideAboveLoadRelease v) := all _
theorem temperatureEvaluation : Statement (.temperatureEvaluation) := all _
theorem thermalComparatorTrip (sensor : Fin 12) : Statement (.thermalComparatorTrip sensor) := all _
theorem shutdownRelease : Statement (.shutdownRelease) := all _
theorem sensorRestored (sensor : Fin 20) : Statement (.sensorRestored sensor) := all _
theorem telemetryPeriod : Statement (.telemetryPeriod) := all _
theorem snapshotSwapDeferred : Statement (.snapshotSwapDeferred) := all _
theorem resetNRelease : Statement (.resetNRelease) := all _
theorem tSwapSourceStartExpiry (port : Fin 4) (vbus : Q) : Statement (.tSwapSourceStartExpiry port vbus) := all _
theorem tSinkTxExpiry (port : Fin 4) : Statement (.tSinkTxExpiry port) := all _

end Sys2Proof.Laws.NoWord
end

