-- ==== Sys2Proof/Machine/Balls.lean ====
section
/-! DEFINITION. What the device's balls show in each state: the table "Ball states" (R534), with R240 and R241 for the CC balls, R259
for DSCHG and R344, R345, R365 and R366 for the host's lines. -/

namespace Sys2Proof.Machine
open Sys2Proof

/-- A gate driver: held off by its resistor with no supply, held off by the driver, or as its switch is commanded. -/
inductive Drive where
  | passiveOff | activelyOff | commanded (on : Bool)
  deriving DecidableEq, Repr

/-- What a CC ball presents. -/
inductive CcTerm where
  | opened | rd | rp
  deriving DecidableEq, Repr

/-- A line that the device may leave alone: high impedance or released, or driven to a level. -/
inductive Line where
  | released | low | high
  deriving DecidableEq, Repr

/-- The AON domain holds the other domains in reset: without its own power, in ship mode and in the Clearing reset (R507). -/
def heldDark (s : State) : Bool := !s.aon.powered || s.dev = .ship || s.dev = .clearing

/-- HGx and LGx of a phase. The driver domain needs VCC and VDRV (R535). -/
def phaseGate (s : State) (k : Fin 28) (g : Gate) : Drive :=
  if heldDark s || !s.clk.vcc || s.clk.vdrvLow then .passiveOff
  else if s.dev = .boot || s.dev = .deviceStop then .activelyOff
  else .commanded (s.phase[k].gates.contains g)

def tapGate (s : State) : Drive :=
  if heldDark s || !s.clk.vcc then .passiveOff else .commanded (s.tap.active && !s.tap.blocking)

/-- A load port's pass switch conducts in Soft-start, On and Limiting (R273). -/
def loadGate (s : State) (p : Fin 32) : Drive :=
  if heldDark s || !s.clk.vcc then .passiveOff
  else .commanded (s.load[p].state = .softStart || s.load[p].state = .on || s.load[p].state = .limiting)

/-- Both CC balls of a port: no termination until Anvil has applied the defaults, in Device-stop and without power. -/
def ccTerm (s : State) (p : Fin 4) : CcTerm :=
  if heldDark s || !s.clk.vcc || s.dev = .boot || s.dev = .deviceStop then .opened
  else match s.usb[p].tc with
    | .disabled | .errorRecovery => .opened
    | .unattSnk | .attWaitSnk | .attSnk | .trySnk | .tryWaitSnk => .rd
    | .unattSrc | .attWaitSrc | .attSrc | .trySrc | .tryWaitSrc => .rp

/-- DSCHG: as R259 has it in Running; in Boot and Device-stop on while VBUS is above 0.8 V. -/
def dschgOn (s : State) (p : Fin 4) : Bool :=
  !heldDark s && s.clk.vcc &&
  (if s.dev = .boot || s.dev = .deviceStop then decide (800 < s.usb[p].vbus.last) else s.usb[p].dschg)

/-- IRQ_N is driven high while the host targets are held in reset (R345), and is high impedance without VCC (R344). -/
def irqLine (s : State) : Line :=
  if heldDark s || !s.clk.vcc then .released else if s.host.released && irqLow s then .low else .high

/-- ALERT_N is an open drain. -/
def alertLine (s : State) : Line :=
  if heldDark s || !s.clk.vcc || !s.host.released then .released else if alertLow s then .low else .released

/-- SPI_MISO is driven in a frame alone, and never while the targets are held in reset. -/
def misoDriven (s : State) (selected : Bool) : Bool := !heldDark s && s.clk.vcc && s.host.released && selected

/-- SAP_OUT is on in every state but ship mode and the Clearing reset while the AON domain is powered (R505). -/
def sapOutOn (s : State) : Bool := s.aon.powered && s.aon.sapOut

/-- The bias of the NTCs is on in the readings, once the device has left reset. -/
def ntcRefOn (s : State) (reading : Bool) : Bool := !heldDark s && s.clk.vcc && (s.dev = .boot || reading)

end Sys2Proof.Machine
end

