-- ==== Sys2Proof/Tests/Slice0.lean ====
section
/-! SUPPORT. The model's own tests: the well-formedness smoke, small steps with results from the spec or by hand from it,
and for every statement with hypotheses a witness: concrete states and operands that meet each clause's. -/

namespace Sys2Proof.Tests
open Sys2Proof Sys2Proof.Machine Sys2Proof.Safety

/- One theorem after the other: each kernel evaluation keeps its own stack. -/
set_option Elab.async false

/-! ### Small states -/

/-- The buoy of chapter 22 after its boot, Running, by its C-region words. -/
def buoy : State :=
  { State.reset with
    dev := .running, boot := .done, tb := 1000, tbRuns := true,
    clk := { vcc := true, pll := true, crystal := true },
    wires := { words := #v[0x0E010101, 0x001F0008, 0x00050004, 0x000BF11F, 0x0000003F, 0x00000001] },
    eng := .replicate 12 { running := true },
    ring := Vector.ofFn fun q => { cons := (ringConsumers q).map fun m => (m, 0) },
    ride := { State.reset.ride with v := 24000, tier := 1, released := true, low := false },
    warden := { alive := true }, host := { released := true }, mbox := { ready := true } }

/-- Keys of the host layer. -/
def withKeys (l : List (Half × Int)) (s : State) : State := { s with par := { s.par with host := l } }

def withWire (w : Fin 6) (v : Word) (s : State) : State := { s with wires := { s.wires with words := s.wires.words.set w v } }

/-- A command of tag 7 as the host writes it. -/
def cmdBytes (op : Half) (body : List Byte) : List Byte := commandBytes 7 0 op body

/-- Entries live on a ring, every consumer's index at the first. -/
def ringOf (q : Fin 16) (l : List Entry) (s : State) : State :=
  putRing q { s.ring[q] with entries := l, p := BitVec.ofNat 16 l.length, cons := (ringConsumers q).map fun m => (m, 0) } s

/-- The command waits alone in Q0, at index 0. -/
def offer (op : Half) (body : List Byte) (s : State) : State :=
  let t := ringOf 0 [⟨cmdBytes op body, true⟩] s
  { t with mbox := { t.mbox with q0By := [13] } }

/-- A ring full of entries of one byte. -/
def full (q : Fin 16) (s : State) : State := ringOf q (List.replicate (capacity q) ⟨[0], true⟩) s

/-- What the state after a command says; false where the command answers no next state. -/
def after (c : Instr) (s : State) (f : State → Bool) : Bool :=
  match exec c s with
  | .next t => f t
  | _ => false

theorem in_nil {α : Type} (p : α → Prop) : (∀ x ∈ ([] : List α), p x) ↔ True := by simp

/-! ### Well-formedness: one ill-formed term for each check -/

theorem test_illformed_refused : ([
    .sbusTransfer 0 (.done (List.replicate 33 0)), .sbusTransfer 0 (.nackData 32), .sbusTransfer 0 (.clockLow 33 []),
    .sbusTransfer 0 (.alwaysLost 33), .assaySample (List.replicate 5 0) true, .testDac (List.replicate 5 0) true,
    .q0WindowWrite 1023 [1, 2], .q0WindowWrite 0 [], .registerWrite .spi 2 0 0xF, .registerWrite .spi 0 0 0, .spiFrame [0, 0],
    .hbusWrite 0 [], .hbusReadFromPointer 0 0, .hbusCurrentPointerRead 0, .otpReadPass [2] 3300, .otpReadPass [32768] 3300,
    .ringPush 8 1 [0], .ringPush 2 0 (List.replicate 33 0), .ringPush 3 0 [], .assaySetComplete 0 (List.replicate 5 0) 0,
    .urgentRequest 0 false 1 [] none true, .urgentRequest 0 false 1 [0, 1, 2, 3, 4] none true, .converterCheck 0 [],
    .converterCheck 0 (List.replicate 4 []), .ringPeriodBoundary 0 { vRide := 0, vPort := 0, t := 0 },
    .ringPeriodBoundary 0 { vRide := 0, vPort := 0, t := 1, phases := List.replicate 17 {} },
    .ringPeriodBoundary 0 { vRide := 0, vPort := 0, t := 1, phases := [{ edges := List.replicate 5 { slope := 0 } }] },
    .controlFrame 0 [], .annealingFitComplete 0 [], .pdMessageReceived 0 false 0 .accept [], .phaseFailure 0 6] :
    List Instr).all (fun c => !WellFormed c) = true := by decide +kernel

theorem test_wellformed_taken : ([
    .sbusTransfer 0 (.done (List.replicate 32 0)), .q0WindowWrite 1023 [1], .registerWrite .spi 4 0 1, .otpReadPass [32764] 3300,
    .ringPush 2 0 (List.replicate 64 0), .ringPush 3 0 (List.replicate 320 0), .ringPush 15 0 (List.replicate 48 0),
    .controlFrame 0 [0, 0, 0, 0], .phaseFailure 0 5, .echo] : List Instr).all WellFormed = true := by decide +kernel

/-! ### Witnesses: the queue, the mailbox -/

theorem witness_IdleTicks : (buoy.pending = [] ∧ buoy.tbRuns = true) ∧ State.reset.pending = [] ∧ State.reset.tbRuns = false := by
  decide +kernel

theorem witness_CommandCodec : (List.replicate 248 (0xFF : Byte)).length ≤ 248 ∧ ([] : List Byte).length ≤ 248 := by decide +kernel

theorem witness_ResponseLayout : 65535 < 65536 ∧ (List.replicate 244 (0 : Byte)).length ≤ 244 ∧ (0 = 0 ∨ (0 : Nat) = 1) := by decide +kernel

/-- A command whose header says 249 bytes, one whose CRC is spoiled, one with flag bit 7, one of opcode 0x0FFF. -/
def longCmd : List Byte := [7, 0, 0, 0, 249, 0]
def spoiledCmd : List Byte := (cmdBytes 0 []).set 6 0

theorem witness_ChecksInOrder :
    opcodeOf .echo = some 0 ∧ mayTake (ringOf 0 [⟨longCmd, true⟩] buoy) = true ∧
    headEntry 0 0 (ringOf 0 [⟨longCmd, true⟩] buoy) = some ⟨longCmd, true⟩ ∧
    indexOf (ringOf 0 [⟨longCmd, true⟩] buoy).ring[(0 : Fin 16)] 0 = some 0 ∧ buoy.fc.inject = [] ∧
    ((cmdOf longCmd 0).op = 0 ∧ 248 < (cmdOf longCmd 0).len) ∧
    ((cmdOf spoiledCmd 0).op = 0 ∧ (cmdOf spoiledCmd 0).len ≤ 248 ∧ crcFitsCmd spoiledCmd (cmdOf spoiledCmd 0) = false) ∧
    (crcFitsCmd (commandBytes 7 0x80 0 []) (cmdOf (commandBytes 7 0x80 0 []) 0) = true ∧
      (cmdOf (commandBytes 7 0x80 0 []) 0).flags &&& 0xFE ≠ 0) ∧
    ((cmdOf (cmdBytes 0 []) 0).flags &&& 0xFE = 0 ∧
      (tagsInUse { buoy with mbox := { buoy.mbox with long := [⟨.image, 7, 0, 0, 0⟩] } }).contains (cmdOf (cmdBytes 0 []) 0).tag = true) ∧
    ((tagsInUse buoy).contains (cmdOf (cmdBytes 0x0FFF []) 0).tag = false ∧ opcodes.contains (cmdOf (cmdBytes 0x0FFF []) 0).op.toNat = false) := by
  decide +kernel

theorem witness_DryRunHasNoEffect : opcodeOf .echo = some 0 ∧
    Offered (ringOf 0 [⟨commandBytes 7 1 0 [], true⟩] buoy) (commandBytes 7 1 0 []) 0 ∧
    (cmdOf (commandBytes 7 1 0 []) 0).flags = 1 ∧ (cmdOf (commandBytes 7 1 0 []) 0).op = 0 := by
  unfold Offered; and_intros <;> decide +kernel

def confirm (l : List Byte) : List Byte := [0x48, 0x71] ++ l

theorem witness_SystemCommandsAnswered :
    (Waits (offer 0x0000 [1, 2, 3] buoy) (cmdBytes 0x0000 [1, 2, 3]) 0 0x0000 ∧
      (cmdOf (cmdBytes 0x0000 [1, 2, 3]) 0).len ≤ 244) ∧
    (Waits (offer 0x0001 [] buoy) (cmdBytes 0x0001 []) 0 0x0001 ∧ (cmdOf (cmdBytes 0x0001 []) 0).len = 0) ∧
    (∀ k ∈ ([0, 1, 2] : List Byte), Waits (offer 0x0002 (confirm [k]) buoy) (cmdBytes 0x0002 (confirm [k])) 0 0x0002 ∧
      (cmdOf (cmdBytes 0x0002 (confirm [k])) 0).len = 3 ∧ (cmdOf (cmdBytes 0x0002 (confirm [k])) 0).confirmed = true ∧
      (cmdOf (cmdBytes 0x0002 (confirm [k])) 0).u8 2 = k.toNat) ∧
    (∀ k ∈ ([0, 1] : List Byte), Waits (offer 0x0003 (confirm [k]) buoy) (cmdBytes 0x0003 (confirm [k])) 0 0x0003 ∧
      (cmdOf (cmdBytes 0x0003 (confirm [k])) 0).confirmed = true ∧ (cmdOf (cmdBytes 0x0003 (confirm [k])) 0).u8 2 = k.toNat) ∧
    (offer 0x0003 (confirm [0]) buoy).otp.busy = none ∧ reedEn buoy = true ∧ reedEn (withWire 3 0 buoy) = false ∧
    Waits (offer 0x0003 (confirm [0]) (withWire 3 0 buoy)) (cmdBytes 0x0003 (confirm [0])) 0 0x0003 := by
  unfold Waits Offered; and_intros <;> decide +kernel

/-- The six counters of source port 0. -/
def clearBody : List Byte := [1, 0, 0x3F, 0, 0, 0, 0, 0, 0, 0]

theorem witness_CounterClear :
    Waits (offer 0x0004 clearBody buoy) (cmdBytes 0x0004 clearBody) 0 0x0004 ∧ (cmdOf (cmdBytes 0x0004 clearBody) 0).len = 10 ∧
    (counterNumbers ((cmdOf (cmdBytes 0x0004 clearBody) 0).u8 0)).isEmpty = false ∧
    portCheck (offer 0x0004 clearBody buoy) ((cmdOf (cmdBytes 0x0004 clearBody) 0).u8 0) ((cmdOf (cmdBytes 0x0004 clearBody) 0).u8 1) = none ∧
    (maskBits (ofLe (slice (cmdOf (cmdBytes 0x0004 clearBody) 0).body 2 8))).all (counterNumbers ((cmdOf (cmdBytes 0x0004 clearBody) 0).u8 0)).contains = true := by
  unfold Waits Offered; and_intros <;> decide +kernel

/-- One byte written to target 0x50 and one read back. -/
def sbusBody : List Byte := [0x50, 1, 1, 0, 0xAB]

theorem witness_SbusCommands :
    Waits (offer 0x0005 sbusBody buoy) (cmdBytes 0x0005 sbusBody) 0 0x0005 ∧ (cmdOf (cmdBytes 0x0005 sbusBody) 0).u8 0 < 128 ∧
    (cmdOf (cmdBytes 0x0005 sbusBody) 0).u8 1 ≤ 32 ∧ (cmdOf (cmdBytes 0x0005 sbusBody) 0).u8 2 ≤ 32 ∧
    0 < (cmdOf (cmdBytes 0x0005 sbusBody) 0).u8 1 + (cmdOf (cmdBytes 0x0005 sbusBody) 0).u8 2 ∧
    (cmdOf (cmdBytes 0x0005 sbusBody) 0).u8 3 = 0 ∧ (cmdOf (cmdBytes 0x0005 sbusBody) 0).len = 4 + (cmdOf (cmdBytes 0x0005 sbusBody) 0).u8 1 ∧
    sbusTooLong (offer 0x0005 sbusBody buoy) 1 1 = false ∧ (param (offer 0x0005 sbusBody buoy) 0x39).toNat ≤ 100 ∧
    0 < (param (offer 0x0005 sbusBody buoy) 0x39).toNat ∧ 1 ≤ (cmdOf (cmdBytes 0x0005 sbusBody) 0).u8 1 ∧ buoy.mbox.ready = true ∧
    mayRecover buoy = true ∧ mayRecover { buoy with sbus := { buoy.sbus with failTb := some 1000 } } = false := by
  unfold Waits Offered; and_intros <;> decide +kernel

/-! ### Witnesses: mailbox commands -/

/-- V_T set to 25.00 V, then to 28.00 V; a record of a key that is none. -/
def setBody : List Byte := [0x00, 0x02, 2, 0xC4, 0x09, 0x00, 0x02, 2, 0xF0, 0x0A]
def badKeyBody : List Byte := [0xFF, 0x0F, 1, 0]
def set2 (op : Half) (b : List Byte) : State := offer op b (withKeys [(0x0200, 2500)] buoy)

/-- The two records of `setBody`, and the key list of the two-byte bodies. -/
def setRecords : List Rec := [⟨0x0200, 2, [0xC4, 0x09]⟩, ⟨0x0200, 2, [0xF0, 0x0A]⟩]

theorem setBody_recs : setRecs (cmdOf (cmdBytes 0x0100 setBody) 0) = some setRecords := by decide +kernel
theorem setBody_apply : applyRecs (offer 0x0100 setBody buoy) setRecords = [(0x0200, 2800)] := by decide +kernel
theorem getBody_keys : keysOf (cmdOf (cmdBytes 0x0101 [0x00, 0x02]) 0) = [0x0200] := by decide +kernel
theorem revertBody_keys : keysOf (cmdOf (cmdBytes 0x0102 [0x00, 0x02]) 0) = [0x0200] := by decide +kernel

theorem row_0200 : ∀ k ∈ ([0x0200] : List Half), (keyRow k).isSome = true := by
  intro k h; rw [List.mem_singleton.mp h]; decide +kernel

theorem witness_ParamCommands_set : buoy.dev ≠ .deviceStop ∧ Waits (offer 0x0100 setBody buoy) (cmdBytes 0x0100 setBody) 0 0x0100 ∧
    0 < (cmdOf (cmdBytes 0x0100 setBody) 0).len ∧
    (∀ r ∈ setRecords, recordStatus (offer 0x0100 setBody buoy) r = none) ∧
    formationBars (offer 0x0100 setBody buoy)
      (withHost (offer 0x0100 setBody buoy) (applyRecs (offer 0x0100 setBody buoy) setRecords)) = false ∧
    setStatus (offer 0x0100 setBody buoy) (applyRecs (offer 0x0100 setBody buoy) setRecords) (setRecords.map (·.key)) = none ∧
    Waits (offer 0x0100 badKeyBody buoy) (cmdBytes 0x0100 badKeyBody) 0 0x0100 ∧
    setRecs (cmdOf (cmdBytes 0x0100 badKeyBody) 0) = some [⟨0x0FFF, 1, [0]⟩] ∧ (keyRow 0x0FFF).isNone = true := by
  rw [setBody_apply]; unfold Waits Offered; and_intros <;> decide +kernel

theorem witness_ParamCommands_getRevert :
    Waits (set2 0x0101 [0x00, 0x02]) (cmdBytes 0x0101 [0x00, 0x02]) 0 0x0101 ∧ keysLen (cmdOf (cmdBytes 0x0101 [0x00, 0x02]) 0) = true ∧
    (∀ k ∈ keysOf (cmdOf (cmdBytes 0x0101 [0x00, 0x02]) 0), (keyRow k).isSome = true) ∧
    ((keysOf (cmdOf (cmdBytes 0x0101 [0x00, 0x02]) 0)).flatMap (keyRecord (set2 0x0101 [0x00, 0x02]))).length ≤ 244 ∧
    Waits (set2 0x0102 [0x00, 0x02]) (cmdBytes 0x0102 [0x00, 0x02]) 0 0x0102 ∧ keysLen (cmdOf (cmdBytes 0x0102 [0x00, 0x02]) 0) = true ∧
    (∀ k ∈ keysOf (cmdOf (cmdBytes 0x0102 [0x00, 0x02]) 0), (keyRow k).isSome = true) ∧
    (∀ k ∈ keysOf (cmdOf (cmdBytes 0x0102 [0x00, 0x02]) 0), keyPortDisabled (set2 0x0101 [0x00, 0x02]) k = false) ∧
    keysOf (cmdOf (cmdBytes 0x0102 [0xFF, 0xFF]) 0) = [0xFFFF] ∧ (keyRow 0x0307).isSome = true ∧ keyPortDisabled buoy 0x0307 = true ∧
    formationBars (set2 0x0102 [0x00, 0x02]) (withHost (set2 0x0102 [0x00, 0x02]) []) = false ∧
    setStatus (set2 0x0102 [0x00, 0x02]) [] (keysOf (cmdOf (cmdBytes 0x0102 [0x00, 0x02]) 0)) = none := by
  rw [getBody_keys, revertBody_keys]; unfold Waits Offered
  and_intros <;> first | exact row_0200 | (intro k h; rw [List.mem_singleton.mp h]; decide +kernel) | decide +kernel

/-- Four bytes at offset 2044 of the stage, and at 0; four bytes at offset 65532 of the patch. -/
def stageBody : List Byte := [0xFC, 0x07, 1, 2, 3, 4]
def patchBody : List Byte := [0xFC, 0xFF, 0, 0, 1, 2, 3, 4]

theorem witness_StagingCommands :
    Waits (offer 0x0103 stageBody buoy) (cmdBytes 0x0103 stageBody) 0 0x0103 ∧ Memory.wf buoy.mbox.stage = true ∧
    (cmdOf (cmdBytes 0x0103 stageBody) 0).len = 6 ∧ (cmdOf (cmdBytes 0x0103 stageBody) 0).u16 0 = 2044 ∧ imageBurns buoy = false ∧
    (cmdOf (cmdBytes 0x0103 [0, 0, 1, 2, 3, 4]) 0).u16 0 = 0 ∧
    Waits (offer 0x0B01 patchBody buoy) (cmdBytes 0x0B01 patchBody) 0 0x0B01 ∧ Memory.wf buoy.mbox.patch = true ∧
    (cmdOf (cmdBytes 0x0B01 patchBody) 0).len = 8 ∧ (cmdOf (cmdBytes 0x0B01 patchBody) 0).u32 0 = 65532 ∧ buoy.mbox.patched = none ∧
    (cmdOf (cmdBytes 0x0B01 [0, 0, 0, 0, 1, 2, 3, 4]) 0).u32 0 = 0 := by
  unfold Waits Offered; and_intros <;> decide +kernel

/-! An image without records, its CRC-32 taken one byte at a time so that each value is a number before the next. -/

def strictCrc : List Byte → Nat → Nat
  | [], n => n
  | b :: bs, n => match (crcByte32 (BitVec.ofNat 32 n) b).toNat with
    | 0 => strictCrc bs 0
    | k + 1 => strictCrc bs (k + 1)

theorem strictCrc_eq (bs : List Byte) : ∀ c : Word, (bs.foldl crcByte32 c).toNat = strictCrc bs c.toNat := by
  induction bs with
  | nil => intro c; rfl
  | cons b bs ih =>
    intro c
    have h : strictCrc (b :: bs) c.toNat = strictCrc bs (crcByte32 c b).toNat := by
      simp only [strictCrc, BitVec.ofNat_toNat, BitVec.setWidth_eq]
      split <;> simp_all
    rw [List.foldl_cons, ih, h]

/-- Magic, version 1, no record, identity 0x12345678, unsigned; the CRC at 0x7F8. -/
def emptyImage : Mem :=
  memWriteN (memWriteN [] 0 [0x48, 0x71, 0x0C, 0x1D, 1, 0, 0, 0, 0x78, 0x56, 0x34, 0x12]) 0x7F8 [0xA8, 0xA8, 0xBE, 0x2D]

/-- Its 2048 bytes. -/
def imgBytes : List Byte :=
  [0x48, 0x71, 0x0C, 0x1D, 1, 0, 0, 0, 0x78, 0x56, 0x34, 0x12] ++ List.replicate 2028 0 ++ [0xA8, 0xA8, 0xBE, 0x2D] ++ List.replicate 4 0

theorem memReadN_range (m : Mem) (n : Nat) : ∀ a, memReadN m a n = (List.range' a n).map (memRead m) := by
  induction n with
  | zero => intro a; rfl
  | succ n ih => intro a; rw [memReadN, ih, List.range'_succ, List.map_cons]

theorem emptyImage_read : memReadN emptyImage 0 2048 = imgBytes := by
  rw [memReadN_range, ← List.range_eq_range']; decide +kernel

def imaged (s : State) : State := { s with mbox := { s.mbox with stage := emptyImage, stageLen := 2044 } }

theorem imaged_crc : crcFits imgBytes = true := by
  unfold crcFits crc32
  rw [decide_eq_true_iff, BitVec.toNat_not, strictCrc_eq]
  decide +kernel

theorem imaged_form (s : State) : stagedForm (imaged s) = true := by
  unfold stagedForm
  rw [show staged (imaged s) = imgBytes from emptyImage_read]
  have h : formatOk imgBytes = true := by decide +kernel
  have h1 : (slice imgBytes 0x7E0 16).all (· = 0) = true := by decide +kernel
  have h2 : (slice imgBytes 0x7FC 4).all (· = 0) = true := by decide +kernel
  simp only [h, h1, h2, imaged_crc]; rfl

theorem imaged_unsigned : imgSigned imgBytes = false := by decide +kernel

/-- Unsigned images stand where secure boot is not required. -/
theorem imaged_secure (s : State) (h : s.wires.secure = false) (h1 : lockBlown (imaged s) 4 = false) :
    signatureOk (imaged s) (staged (imaged s)) = true ∧ stagedSecure (imaged s) = true := by
  have hs : staged (imaged s) = imgBytes := emptyImage_read
  have h2 : signatureOk (imaged s) (staged (imaged s)) = true := by
    unfold signatureOk; rw [hs, imaged_unsigned]; simp [imaged, h]
  exact ⟨h2, by unfold stagedSecure; rw [h2, h1]; rfl⟩

theorem witness_ImageAndPatchInForce_trial :
    Waits (offer 0x0104 [0] buoy) (cmdBytes 0x0104 [0]) 0 0x0104 ∧ (cmdOf (cmdBytes 0x0104 [0]) 0).len = 1 ∧
    buoy.dev ≠ .deviceStop ∧ (cmdOf (cmdBytes 0x0104 [0]) 0).u8 0 = 0 ∧ stagedForm (offer 0x0104 [0] buoy) = false ∧
    (Waits (offer 0x0104 [0] (imaged buoy)) (cmdBytes 0x0104 [0]) 0 0x0104 ∧ stagedForm (offer 0x0104 [0] (imaged buoy)) = true ∧
      signatureOk (offer 0x0104 [0] (imaged buoy)) (staged (offer 0x0104 [0] (imaged buoy))) = true) ∧
    signatureOk { imaged buoy with wires := { buoy.wires with secure := true } } (staged (imaged buoy)) = false ∧
    (Waits (offer 0x0104 [1] buoy) (cmdBytes 0x0104 [1]) 0 0x0104 ∧ (cmdOf (cmdBytes 0x0104 [1]) 0).u8 0 = 1 ∧ buoy.par.trial = none) ∧
    (withTrial buoy (some [])).par.trial.isSome = true ∧
    formationBars (offer 0x0104 [1] (withTrial buoy (some []))) (slotLayerNow (withTrial (offer 0x0104 [1] (withTrial buoy (some []))) none)) = false := by
  unfold Waits Offered
  have e : ∀ b, staged (offer 0x0104 b (imaged buoy)) = imgBytes := fun _ => emptyImage_read
  refine ⟨?_, ?_, ?_, ?_, ?_, ⟨?_, ?_, ?_⟩, ?_, ?_, ?_, ?_⟩
  case refine_7 => exact imaged_form buoy
  case refine_8 => unfold signatureOk; rw [e, imaged_unsigned]; decide +kernel
  case refine_9 =>
    unfold signatureOk; rw [show staged (imaged buoy) = imgBytes from emptyImage_read, imaged_unsigned]; decide +kernel
  all_goals (and_intros <;> decide +kernel)

theorem witness_ImageAndPatchInForce_status : Waits (offer 0x0106 [] buoy) (cmdBytes 0x0106 []) 0 0x0106 ∧ (cmdOf (cmdBytes 0x0106 []) 0).len = 0 ∧
    (Waits (offer 0x0B02 (confirm []) buoy) (cmdBytes 0x0B02 (confirm [])) 0 0x0B02 ∧ (cmdOf (cmdBytes 0x0B02 (confirm [])) 0).len = 2 ∧
      (cmdOf (cmdBytes 0x0B02 (confirm [])) 0).confirmed = true ∧ buoy.dev ≠ .deviceStop ∧ buoy.otp.busy = none ∧ patchForm (patchBytes buoy) = false) := by
  unfold Waits Offered; and_intros <;> decide +kernel

/-- A patch of one empty section for this silicon, base 1.2 to 1.3, to be signed by position 0. -/
def patchMem : Mem :=
  memWriteN [] 0 [0x50, 0x71, 0x0C, 0x1D, 0xA1, 2, 1, 3, 1, 0, 1, 0, 96, 0, 0, 0, 0, 0, 0, 0, 32]

def patched (s : State) : State := { s with mbox := { s.mbox with patch := patchMem, patchLen := 96 } }

/-- Whether a signature verifies is the die's own; the form and the key's use are met, and position 1 holds no key. -/
theorem witness_ImageAndPatchInForce_patch : patchForm (patchBytes (patched buoy)) = true ∧
    (Config.sigVerifies (digestOf (patched buoy) 0) (sha256 (slice (patchBytes (patched buoy)) 0 32)) (slice (patchBytes (patched buoy)) 32 64) = true →
      patchSigned (patched buoy) (patchBytes (patched buoy)) = true) ∧
    patchSigned { patched buoy with otp := { buoy.otp with marginal := [0x920] } } (patchBytes (patched buoy)) = false := by
  have k : patchKeyIdx (patchBytes (patched buoy)) = 0 := by decide +kernel
  have n : (patchBytes (patched buoy)).length - 64 = 32 := by decide +kernel
  refine ⟨by decide +kernel, fun h => ?_, ?_⟩
  · unfold patchSigned
    have ok : patchKeyOk (patched buoy) 0 = true := by decide +kernel
    simp only [k, n, h, ok, Bool.and_true]
  · unfold patchSigned; rw [k, Bool.and_eq_false_iff]; exact Or.inl (by decide +kernel)

def burning (s : State) : State := { s with otp := { s.otp with busy := some ⟨.lock, 9, 0, 1, 0⟩ } }
def powered (s : State) : State := { s with vcc := { s.vcc with mean := 3300 }, therm := { s.therm with tj := 25 } }

theorem witness_BurnCommandsStart_image :
    Waits (offer 0x0105 (confirm []) (imaged buoy)) (cmdBytes 0x0105 (confirm [])) 0 0x0105 ∧ (cmdOf (cmdBytes 0x0105 (confirm [])) 0).len = 2 ∧
    (cmdOf (cmdBytes 0x0105 (confirm [])) 0).confirmed = true ∧ buoy.dev ≠ .deviceStop ∧ stagedForm (offer 0x0105 (confirm []) (imaged buoy)) = true ∧
    stagedSecure (offer 0x0105 (confirm []) (imaged buoy)) = true ∧ enrolBars (offer 0x0105 (confirm []) (imaged buoy)) = false ∧
    nextSlot (offer 0x0105 (confirm []) (imaged buoy)) = some 1 ∧ (burning buoy).otp.busy.isSome = true ∧ buoy.otp.busy = none ∧
    burnAllowed buoy = false ∧ burnAllowed (powered buoy) = true := by
  have e : staged (offer 0x0105 (confirm []) (imaged buoy)) = imgBytes := emptyImage_read
  have g : imgRecs imgBytes = some [] := by decide +kernel
  unfold Waits Offered
  refine ⟨?_, ?_, ?_, ?_, ?_, ?_, ?_, ?_, ?_, ?_, ?_⟩
  case refine_5 => exact imaged_form buoy
  case refine_6 => unfold stagedSecure signatureOk; rw [e, imaged_unsigned]; decide +kernel
  case refine_7 => unfold enrolBars; rw [e, g]; decide +kernel
  all_goals (and_intros <;> decide +kernel)

theorem witness_BurnCommandsStart_locks :
    (Waits (offer 0x0107 (confirm [0x3F]) buoy) (cmdBytes 0x0107 (confirm [0x3F])) 0 0x0107 ∧ (cmdOf (cmdBytes 0x0107 (confirm [0x3F])) 0).len = 3 ∧
      (cmdOf (cmdBytes 0x0107 (confirm [0x3F])) 0).confirmed = true ∧ lockBlown buoy 1 = false ∧ buoy.wires.debugLock = false ∧
      fuseConflict buoy 0x3F = false ∧
      fuseConflict { buoy with otp := { buoy.otp with mem := memWriteN buoy.otp.mem 0x800 [2] } } 1 = false) ∧
    (Waits (offer 0x0108 (confirm [31, 31]) buoy) (cmdBytes 0x0108 (confirm [31, 31])) 0 0x0108 ∧
      (cmdOf (cmdBytes 0x0108 (confirm [31, 31])) 0).len = 4 ∧ (cmdOf (cmdBytes 0x0108 (confirm [31, 31])) 0).confirmed = true ∧
      (cmdOf (cmdBytes 0x0108 (confirm [31, 31])) 0).u8 2 < 32 ∧ (cmdOf (cmdBytes 0x0108 (confirm [31, 31])) 0).u8 3 < 32) := by
  unfold Waits Offered; and_intros <;> decide +kernel

/-- All three copies of C-region word 0 hold a bit that the selection would not burn. -/
def conflicting : State :=
  { buoy with otp := { buoy.otp with mem := memWrite (memWrite (memWrite buoy.otp.mem 0x800 2) 0x840 2) 0x880 2 } }
theorem witness_BurnCommandsStart_conflict : fuseConflict conflicting 1 = true := by decide +kernel

/-- CRC-16 one byte at a time, as `strictCrc`. -/
def strict16 : List Byte → Nat → Nat
  | [], n => n
  | b :: bs, n => match (crcByte16 (BitVec.ofNat 16 n) b).toNat with
    | 0 => strict16 bs 0
    | k + 1 => strict16 bs (k + 1)

theorem strict16_eq (bs : List Byte) : ∀ c : Half, (bs.foldl crcByte16 c).toNat = strict16 bs c.toNat := by
  induction bs with
  | nil => intro c; rfl
  | cons b bs ih =>
    intro c
    have h : strict16 (b :: bs) c.toNat = strict16 bs (crcByte16 c b).toNat := by
      simp only [strict16, BitVec.ofNat_toNat, BitVec.setWidth_eq]
      split <;> simp_all
    rw [List.foldl_cons, ih, h]

/-- KEY_REVOKE of position 3 with an all-zero signature, under the same condition on the die's verifier. -/
def revokeCmd : List Byte := [7, 0, 0x03, 0x0B, 68, 0, 0x12, 0x5f, 0x48, 0x71, 3, 0] ++ List.replicate 244 0

theorem revokeCmd_crc : crcFitsCmd revokeCmd (cmdOf revokeCmd 0) = true := by
  unfold crcFitsCmd crc16
  rw [decide_eq_true_iff, strict16_eq]; decide +kernel

theorem witness_BurnCommandsStart_revoke :
    Waits (ringOf 0 [⟨revokeCmd, true⟩] buoy) revokeCmd 0 0x0B03 ∧ (cmdOf revokeCmd 0).len = 68 ∧
    (cmdOf revokeCmd 0).confirmed = true ∧ (cmdOf revokeCmd 0).u8 2 = 3 ∧ (cmdOf revokeCmd 0).u8 3 = 0 ∧
    keyRevoked buoy 3 = false ∧ buoy.wires.secure = false ∧ keyLive buoy 0 = true ∧
    (Config.sigVerifies (digestOf buoy 0) (sha256 (le64 Config.dieId ++ [byte 3])) (List.replicate 64 0) = true →
      revokeAuth buoy 3 (List.replicate 64 0) = true) := by
  unfold Waits Offered
  refine ⟨⟨⟨?_, ?_, ?_, ?_, ?_, ?_, revokeCmd_crc, ?_, ?_⟩, ?_, ?_⟩, ?_, ?_, ?_, ?_, ?_, ?_, ?_, ?_⟩
  case refine_18 =>
    intro h
    have k : keyLive buoy 0 = true := by decide +kernel
    unfold revokeAuth
    rw [List.any_eq_true]
    exact ⟨0, by decide, by rw [k]; exact h⟩
  all_goals decide +kernel

/-- A burn of each kind that runs. -/
theorem witness_BurnsEnd :
    (∀ k ∈ ([.image, .cRegion, .lock, .revoke] : List LongKind),
      ({ buoy with otp := { buoy.otp with busy := some ⟨k, 7, 0, 3, 0⟩, slot := 1 } } : State).otp.busy = some ⟨k, 7, 0, 3, 0⟩) ∧
    Memory.wf buoy.otp.mem = true ∧ (3 : Byte).toNat < 4 ∧ 1 ≤ ({ buoy.otp with slot := 1 } : Otp).slot.val ∧
    (2899 : Q) < 2900 ∧ ¬(2900 : Q) < 2900 := by
  and_intros <;> decide +kernel

/-- Channels 0 and 15, every load port that the buoy enables. -/
theorem witness_ChannelAndLoadCommands_channels : let b : List Byte := [0x01, 0x80]
    (∀ k ∈ ([0, 1] : List Byte), Waits (offer 0x0200 (b ++ [k]) buoy) (cmdBytes 0x0200 (b ++ [k])) 0 0x0200 ∧
      (cmdOf (cmdBytes 0x0200 (b ++ [k])) 0).len = 3 ∧ (cmdOf (cmdBytes 0x0200 (b ++ [k])) 0).u8 2 = k.toNat) ∧
    (∀ c ∈ chansOf (0x8001), chanEnabled buoy c = true ∧ wardenHolds buoy c = false) ∧ buoy.dev ≠ .deviceStop ∧
    (switching buoy 0 = false ∧ switching (onChan 0 (fun h => { h with enabled := true }) buoy) 0 = true ∧ buoy.chan[(0 : Fin 16)].offByCmd = false) ∧
    (∃ c ∈ chansOf 0x0001, wardenHolds (onEng 2 (fun e => { e with failed := true }) buoy) c = true) ∧
    (∃ c ∈ chansOf 0x0020, chanEnabled buoy c = false) ∧
    Waits (offer 0x0201 b buoy) (cmdBytes 0x0201 b) 0 0x0201 ∧ (cmdOf (cmdBytes 0x0201 b) 0).len = 2 := by
  unfold Waits Offered; intro b; simp only [List.forall_mem_cons, in_nil, and_true]; and_intros <;> decide +kernel

theorem witness_ChannelAndLoadCommands_loads :
    (Waits (offer 0x0700 [0x3F, 0, 0, 0, 0x01, 0, 0, 0] buoy) (cmdBytes 0x0700 [0x3F, 0, 0, 0, 0x01, 0, 0, 0]) 0 0x0700 ∧
      (cmdOf (cmdBytes 0x0700 [0x3F, 0, 0, 0, 0x01, 0, 0, 0]) 0).len = 8 ∧ (∀ p ∈ loadsOf 0x3F, loadEn buoy p = true)) ∧
    (∃ p ∈ loadsOf 0x80000000, loadEn buoy p = false) ∧
    (Waits (offer 0x0701 [0x3F, 0, 0, 0] (onLoad 5 (fun l => { l with state := .latched }) buoy)) (cmdBytes 0x0701 [0x3F, 0, 0, 0]) 0 0x0701 ∧
      (cmdOf (cmdBytes 0x0701 [0x3F, 0, 0, 0]) 0).len = 4 ∧ (5 : Fin 32) ∈ loadsOf 0x3F ∧ (6 : Fin 32) ∉ loadsOf 0x3F) := by
  unfold Waits Offered; and_intros <;> decide +kernel

theorem witness_PortReadsAnswered :
    (∀ op ∈ ([0x0202, 0x0300, 0x0400, 0x0500, 0x0600, 0x0702] : List Half),
      Waits (offer op [0] buoy) (cmdBytes op [0]) 0 op ∧ (cmdOf (cmdBytes op [0]) 0).len = 1) ∧
    (∀ k ∈ ([5, 1, 3, 2, 4] : List Nat), portCheck buoy k 0 = none) ∧
    (Waits (offer 0x0300 [8] buoy) (cmdBytes 0x0300 [8]) 0 0x0300 ∧ 8 ≤ (cmdOf (cmdBytes 0x0300 [8]) 0).u8 0) ∧
    (Waits (offer 0x0300 [7] buoy) (cmdBytes 0x0300 [7]) 0 0x0300 ∧ (cmdOf (cmdBytes 0x0300 [7]) 0).u8 0 < 8 ∧ srcEn buoy 7 = false) := by
  unfold Waits Offered; simp only [List.forall_mem_cons, in_nil, and_true]; and_intros <;> decide +kernel

/-- Port 0 with the chemistry of code 4, an equalise allowed and a nominal capacity. -/
def lead : State := withKeys [(0x0400, 7), (0x0404, 1000), (0x0460, 30)] (withWire 0 0x0E010104 buoy)
def charging (c : Charge) (p : Fin 4) (s : State) : State := onBat p (fun x => { x with charge := c }) s

theorem witness_BatteryCommandsAnswered :
    (∀ op ∈ ([0x0401, 0x0402, 0x0403, 0x0501] : List Half), Waits (offer op [0] buoy) (cmdBytes op [0]) 0 op ∧
      (cmdOf (cmdBytes op [0]) 0).len = 1 ∧ (cmdOf (cmdBytes op [0]) 0).u8 0 = 0) ∧
    portCheck buoy 3 0 = none ∧ 0 = gangLow buoy (fin4 0) ∧ buoy.dev ≠ .deviceStop ∧ buoy.bat[(0 : Fin 4)].charge ≠ .dormant ∧
    (charging .dormant 0 buoy).bat[(0 : Fin 4)].charge = .dormant ∧ chem buoy 0 ≠ 4 ∧ chem lead 0 = 4 ∧
    lead.bat[(0 : Fin 4)].charge = .off ∧ (charging .bulk 0 lead).bat[(0 : Fin 4)].charge = .bulk ∧
    equaliseRefused (charging .bulk 0 lead) 0 = false ∧ buoy.bat[(0 : Fin 4)].ovp = .armed ∧
    (∀ o ∈ ([.stopped, .resetOnly, .clearable] : List Ovp), (onBat 0 (fun x => { x with ovp := o }) buoy).bat[(0 : Fin 4)].ovp = o) := by
  unfold Waits Offered; simp only [List.forall_mem_cons, in_nil, and_true]; and_intros <;> decide +kernel

/-- One sample of the first input of group B, and TEST_DAC of code 1023 there. -/
theorem witness_AssayAndThermalCommands :
    (Waits (offer 0x0801 [3] buoy) (cmdBytes 0x0801 [3]) 0 0x0801 ∧ (cmdOf (cmdBytes 0x0801 [3]) 0).len = 1 ∧ (cmdOf (cmdBytes 0x0801 [3]) 0).u8 0 < 4) ∧
    (Waits (offer 0x0900 [] buoy) (cmdBytes 0x0900 []) 0 0x0900 ∧ (cmdOf (cmdBytes 0x0900 []) 0).len = 0) ∧
    (∀ k ∈ ([0, 127, 128] : List Byte), Waits (offer 0x0802 [k] buoy) (cmdBytes 0x0802 [k]) 0 0x0802 ∧
      (cmdOf (cmdBytes 0x0802 [k]) 0).u8 0 = k.toNat) ∧
    (Waits (offer 0x0800 [0, 1, 0xFF, 0, 0, 0, 0, 0] buoy) (cmdBytes 0x0800 [0, 1, 0xFF, 0, 0, 0, 0, 0]) 0 0x0800 ∧
      (cmdOf (cmdBytes 0x0800 [0, 1, 0xFF, 0, 0, 0, 0, 0]) 0).len = 8 ∧ 1 ≤ kOf buoy 0 ∧ inputDefined 0 0 = true ∧ segInput 0 0 = false ∧
      buoy.group[(0 : Fin 4)].failedIn.getLsbD 0 = false ∧ buoy.group[(0 : Fin 4)].lost = false) ∧
    (Waits (offer 0x0C01 [0, 0, 0xFF, 3, 0, 0, 0, 0] buoy) (cmdBytes 0x0C01 [0, 0, 0xFF, 3, 0, 0, 0, 0]) 0 0x0C01 ∧
      (cmdOf (cmdBytes 0x0C01 [0, 0, 0xFF, 3, 0, 0, 0, 0]) 0).u16 2 = 1023 ∧ (cmdOf (cmdBytes 0x0C01 [0, 0, 0xFF, 3, 0, 0, 0, 0]) 0).u8 4 = 0) := by
  unfold Waits Offered; simp only [List.forall_mem_cons, in_nil, and_true]; and_intros <;> decide +kernel

/-- A standing Note fault of a channel with ID 1, with its cause gone and present. -/
def noted (k : Byte) : FaultRec := { id := 1, cls := .note, oldCls := .note, rep := { checker := k, unitKind := 0, unitIdx := 0 }, tb := 5 }
def listed (f : FaultRec) (s : State) : State := { s with warden := { s.warden with standing := [f] } }

theorem witness_FaultAndSecurityCommands :
    (Waits (offer 0x0A00 [0, 0, 15] buoy) (cmdBytes 0x0A00 [0, 0, 15]) 0 0x0A00 ∧ (cmdOf (cmdBytes 0x0A00 [0, 0, 15]) 0).u8 2 < 16) ∧
    (Waits (offer 0x0A01 [1, 0, 0, 0] (listed (noted 0x12) buoy)) (cmdBytes 0x0A01 [1, 0, 0, 0]) 0 0x0A01 ∧
      (cmdOf (cmdBytes 0x0A01 [1, 0, 0, 0]) 0).len = 4 ∧ (cmdOf (cmdBytes 0x0A01 [1, 0, 0, 0]) 0).u16 0 ≠ 0xFFFF ∧
      (listed (noted 0x12) buoy).warden.standing.find? (fun g => g.id.toNat = (cmdOf (cmdBytes 0x0A01 [1, 0, 0, 0]) 0).u16 0) = some (noted 0x12) ∧
      clearable (listed (noted 0x12) buoy) (noted 0x12) = true ∧ buoy.warden.alive = true) ∧
    clearable (listed (noted 0x21) buoy) (noted 0x21) = false ∧
    (Waits (offer 0x0B00 (List.replicate 32 1) buoy) (cmdBytes 0x0B00 (List.replicate 32 1)) 0 0x0B00 ∧
      (cmdOf (cmdBytes 0x0B00 (List.replicate 32 1)) 0).len = 32 ∧ attestable buoy = true) ∧
    attestable { buoy with otp := { buoy.otp with withdrawn := true } } = false ∧
    (∀ b ∈ ([[1, 1, 0, 0], [6, 16, 0, 0]] : List (List Byte)), Waits (offer 0x0C00 b buoy) (cmdBytes 0x0C00 b) 0 0x0C00 ∧
      (cmdOf (cmdBytes 0x0C00 b) 0).len = 4 ∧ 1 ≤ (cmdOf (cmdBytes 0x0C00 b) 0).u8 0 ∧ (cmdOf (cmdBytes 0x0C00 b) 0).u8 0 ≤ 6 ∧
      1 ≤ (cmdOf (cmdBytes 0x0C00 b) 0).u8 1 ∧ (cmdOf (cmdBytes 0x0C00 b) 0).u8 1 ≤ 16 ∧ (cmdOf (cmdBytes 0x0C00 b) 0).u16 2 = 0) ∧
    buoy.dev ≠ .deviceStop ∧ buoy.wires.debugLock = false ∧
    ({ buoy with wires := { buoy.wires with debugLock := true } } : State).wires.debugLock = true := by
  unfold Waits Offered; simp only [List.forall_mem_cons, in_nil, and_true]; and_intros <;> decide +kernel

/-! ### Witnesses: the host window and its buses -/

def held : State := { buoy with host := { buoy.host with released := false } }

theorem witness_HostReleased : buoy.host.released = true ∧ held.host.released = false := by decide +kernel

theorem witness_DoorbellRule : buoy.host.released = true ∧ (0 : BitVec 3) = 0 ∧ (4 : BitVec 3) ≠ 0 ∧ buoy.mbox.ready = true ∧
    (4 : BitVec 3).toNat ≤ 4 ∧ (4 : BitVec 3).toNat ≤ credit 0 buoy.ring[(0 : Fin 16)] ∧ 4 < (5 : BitVec 3).toNat ∧
    State.reset.mbox.ready = false ∧ credit 0 (full 0 buoy).ring[(0 : Fin 16)] < (1 : BitVec 3).toNat := by
  and_intros <;> decide +kernel

theorem witness_RingWindows : ([1, 2] : List Byte) ≠ [] ∧ (1022 : BitVec 10).toNat + ([1, 2] : List Byte).length ≤ 1024 ∧
    (1022 : BitVec 10).toNat + ([1, 2] : List Byte).length ≤ 256 * credit 0 buoy.ring[(0 : Fin 16)] ∧ Memory.wf buoy.mbox.q0mem = true ∧
    indexOf (ringOf 1 [⟨[0], true⟩] buoy).ring[(1 : Fin 16)] 13 = some 0 ∧
    ((1 : Half) - 0).toNat ≤ lagOf (ringOf 1 [⟨[0], true⟩] buoy).ring[(1 : Fin 16)] 0 ∧
    lagOf (ringOf 1 [⟨[0], true⟩] buoy).ring[(1 : Fin 16)] 0 < ((0xFFFF : Half) - 0).toNat := by
  and_intros <;> decide +kernel

theorem witness_SpiTransactions : ([1] : List Byte) ≠ [] ∧ 0 % 4 = 0 ∧ definedAddr 0 = true ∧ (7 : Nat) ≠ 0 := by decide +kernel

theorem witness_HbusTransactions : (0x2C : Half).toNat % 4 = 0 ∧ definedAddr (0x2C : Half).toNat = true := by decide +kernel

/-- ALERT_N low: READY's cause pending, enabled and latched. -/
def alerting : State := { buoy with host := { buoy.host with intPend := 0x80, alertEn := 0x80, alertArmed := true } }

theorem witness_HostBusErrorRule : definedAddr (BitVec.toNat (0xFFFF : Half)) = false ∧ buoy.fc.feValid = false ∧ alertLow alerting = true ∧
    alertLow buoy = false ∧ (0x0C : BitVec 7) < alerting.host.haddr := by
  and_intros <;> decide +kernel

/-! ### Witnesses: power, boot, standby -/

theorem witness_ResetsKeepAndClear : ({ buoy with aon := { buoy.aon with powered := false } } : State).aon.powered = false ∧
    buoy.aon.powered = true ∧ buoy.clk.vcc = true ∧ State.reset.clk.vcc = false ∧ (4499 : Q) < 4500 ∧ (4199 : Q) < 4200 ∧ (2549 : Q) < 2550 ∧
    (({ buoy with mbox := { buoy.mbox with resetDue := true } } : State).mbox.resetDue = true ∧ buoy.aon.resetNLow = false) := by
  and_intros <;> decide +kernel

def shipped : State := { State.reset with dev := .ship, aon := { State.reset.aon with shipSrcEn := 0x0F, shipReed := true, wakeArmed := 0x08 } }
def reed (r : Reed) (s : State) : State := { s with aon := { s.aon with reed := r } }

theorem witness_ShipModeAndReed : ({ buoy with mbox := { buoy.mbox with shipDue := some 1 } } : State).mbox.shipDue = some 1 ∧
    buoy.dev = .running ∧ shipped.dev = .ship ∧ shipped.aon.shipSrcEn.getLsbD 3 = true ∧ shipped.aon.wakeArmed.getLsbD 3 = true ∧
    reedListens buoy = true ∧ buoy.aon.reed = .idle ∧ (reed (.holding true true) buoy).aon.reed = .holding true true ∧
    reedListens (reed (.holding false false) shipped) = true ∧ reedListens (reed (.holding false true) buoy) = true ∧
    ({ State.reset with dev := .clearing } : State).dev = .clearing ∧ (reed .waitRelease buoy).aon.reed = .waitRelease := by
  and_intros <;> decide +kernel

def boot (b : Boot) (s : State) : State := { s with dev := .boot, boot := b }

theorem witness_BootSequence : (State.reset.dev = .boot ∧ State.reset.boot = .awaitVcc ∧ State.reset.clk.vcc = false ∧ State.reset.aon.powered = true) ∧
    (let s := boot .awaitVcc { buoy with aon := { buoy.aon with resetNLow := true } }
     s.aon.resetNLow = true ∧ s.clk.vcc = true ∧ s.dev = .boot ∧ s.boot = .awaitVcc) ∧
    ((boot .prot buoy).dev = .boot ∧ (boot .prot buoy).boot = .prot ∧ (boot .prot buoy).aon.resetNLow = false) ∧
    (boot .selfTest buoy).boot = .selfTest ∧ (boot .failed buoy).boot = .failed ∧ (boot .anvil buoy).boot = .anvil ∧
    (buoy.boot = .done ∧ passWaits (burning buoy) = true ∧ passWaits buoy = false ∧
      passOwed { buoy with otp := { buoy.otp with passDue := true } } = true) ∧ (boot .passed buoy).boot = .passed ∧ (2650 : Q) < 2651 := by
  and_intros <;> decide +kernel

theorem witness_AnvilRestarts : buoy.eng[(0 : Fin 12)].running = true ∧ wardenRuns buoy = true ∧ buoy.dev ≠ .standby ∧
    (recentRestarts { buoy with warden := { buoy.warden with restarts := [900, 800] } }).length < 3 ∧ buoy.boot = .done ∧
    ({ buoy with mbox := { buoy.mbox with restartDue := true } } : State).mbox.restartDue = true ∧
    ({ buoy with mbox := { buoy.mbox with restarted := true } } : State).mbox.restarted = true := by
  and_intros <;> decide +kernel

/-- In Understory standby since 1000 counts of TB, its windows, its Anvil and its source engine timed from there. -/
def asleep (w : Option Nat) : State :=
  { buoy with dev := .standby, stby := { engine := some 0, watch := true, window := w, winTb := 1000, anvilTb := 1000, srcTb := 1000 } }
/-- 1 s later, and 16 ms less one frame later. -/
def later (n : TB) (s : State) : State := { s with tb := s.tb + n }
/-- The conditions of R524 hold since count 5. -/
def drowsy : State := { buoy with stby := { buoy.stby with since := some 5 } }

theorem witness_StandbyRows : standbyEngine drowsy = some (0, true) ∧ standbyDue (later 4000000000 drowsy) = true ∧ standbyDue drowsy = false ∧
    standbyDue State.reset = false ∧
    ({ asleep none with stby := { (asleep none).stby with exitDue := some (byte (standbyCauseCode .command)) } } : State).stby.exitDue =
      some (byte (standbyCauseCode .command)) ∧
    (asleep none).dev = .standby ∧ (asleep none).stby.window = none ∧ (asleep (some 0)).stby.window = some 0 ∧
    windowDue (later 400000000 (asleep none)) = true ∧ windowDue (asleep none) = false ∧
    passed (later 1600000 (asleep none)) (asleep none).stby.anvilTb 16 = true ∧ passed (asleep none) (asleep none).stby.srcTb 16 = false ∧
    (asleep none).warden.alive = true ∧ (recentRestarts (asleep none)).length < 3 ∧ (asleep none).stby.engine = some 0 ∧
    (asleep none).stby.exitDue ≠ some (byte (standbyCauseCode .source)) := by
  and_intros <;> decide +kernel

theorem witness_DeviceStopIsLeftByResetsAlone : let s : State := { buoy with dev := .deviceStop }
    s.dev = .deviceStop ∧ ∃ t, exec .crystalLost s = .next t := ⟨rfl, _, rfl⟩

theorem witness_FusesNeverClear : step State.reset = .next State.reset := rfl

theorem witness_BuffersStayCanonical : BuffersWf buoy ∧ step buoy = .next { buoy with tb := 1001 } := by
  unfold BuffersWf
  refine ⟨⟨?_, ?_, ?_, ?_, ?_, ?_, fun m h => absurd h (by simp [buoy, State.reset])⟩, rfl⟩ <;> decide +kernel

/-! ### Witnesses: rings, faults, engines, frames -/

/-- A producer of each ring, and one that produces on none of Q1 to Q7. -/
theorem witness_RingPushPlaces : buoy.clk.vcc = true ∧ (isProducer 3 0 = true ∧ (3 : Fin 16) ≠ 0 ∧ (3 : Fin 16) ≠ 14 ∧ buoy.ring[(3 : Fin 16)].stalled = [] ∧
      recordEntries 3 (List.replicate 320 0) ≤ credit 3 buoy.ring[(3 : Fin 16)]) ∧ buoy.mbox.evLost = 0 ∧
    (isProducer 0 13 = true ∧ buoy.mbox.ready = true ∧ (List.replicate 256 (0 : Byte)).length = 256 ∧ Memory.wf buoy.mbox.q0mem = true ∧
      1 ≤ credit 0 buoy.ring[(0 : Fin 16)]) ∧
    (isProducer 14 15 = true ∧ buoy.usb[fin4 (byteAt (List.replicate 48 (0 : Byte)) 0).toNat].held = [] ∧ 1 ≤ credit 14 buoy.ring[(14 : Fin 16)]) ∧
    (isProducer 1 13 = false ∧ (13 : BitVec 4) ≠ 15 ∧ buoy.fc.feValid = false ∧ isProducer 1 15 = false ∧
      (List.replicate 48 (0 : Byte)).length = 48) := by
  and_intros <;> decide +kernel

theorem witness_RingPushPolicies : buoy.clk.vcc = true ∧
    (isProducer 0 13 = true ∧ credit 0 (full 0 buoy).ring[(0 : Fin 16)] < recordEntries 0 [0] ∧ credit 0 (full 0 buoy).ring[(0 : Fin 16)] = 0) ∧
    (isProducer 1 0 = true ∧ ringPolicy 1 = .stall ∧ credit 1 (full 1 buoy).ring[(1 : Fin 16)] < recordEntries 1 [0]) ∧
    (isProducer 13 10 = true ∧ credit 13 (full 13 buoy).ring[(13 : Fin 16)] < recordEntries 13 [0]) ∧
    (isProducer 2 0 = true ∧ credit 2 (full 2 buoy).ring[(2 : Fin 16)] < recordEntries 2 [0] ∧ (full 2 buoy).mbox.evLost = 0) ∧
    (isProducer 8 2 = true ∧ credit 8 (full 8 buoy).ring[(8 : Fin 16)] = 0) ∧
    (isProducer 14 15 = true ∧ credit 14 (full 14 buoy).ring[(14 : Fin 16)] = 0) := by
  and_intros <;> decide +kernel

theorem witness_RingPushPolicies_overrun : isProducer 4 12 = true ∧ ringPolicy 4 = .overrun ∧ recordEntries 4 [0] = 1 ∧
    credit 4 (full 4 buoy).ring[(4 : Fin 16)] = 0 ∧ lagOf (full 4 buoy).ring[(4 : Fin 16)] 0 = capacity 4 := by
  and_intros <;> decide +kernel

def oneEntry (q : Fin 16) (ok : Bool) : State := ringOf q [⟨[0], ok⟩] buoy

theorem witness_RingPops : buoy.clk.vcc = true ∧ buoy.fc.inject = [] ∧
    (isConsumer 1 14 = true ∧ (oneEntry 1 true).ring[(1 : Fin 16)].stalled = [] ∧
      headEntry 1 (consumerKey 1 14) (oneEntry 1 true) = some ⟨[0], true⟩ ∧ indexOf (oneEntry 1 true).ring[(1 : Fin 16)] (consumerKey 1 14) = some 0) ∧
    (isConsumer 0 0 = true ∧ headEntry 0 (consumerKey 0 0) (oneEntry 0 true) = some ⟨[0], true⟩ ∧
      indexOf (oneEntry 0 true).ring[(0 : Fin 16)] (consumerKey 0 0) = some 0) ∧
    (headEntry 8 1 (oneEntry 8 false) = some ⟨[0], false⟩ ∧ isConsumer 8 1 = true ∧ (oneEntry 8 false).fc.feValid = false) ∧
    (headEntry 0 (consumerKey 0 0) (oneEntry 0 false) = some ⟨[0], false⟩ ∧
      (oneEntry 0 false).ring[(1 : Fin 16)].stalled = [] ∧ 1 ≤ credit 1 (oneEntry 0 false).ring[(1 : Fin 16)]) ∧
    headEntry 1 (consumerKey 1 14) buoy = none ∧ (isConsumer 0 13 = false ∧ consumerMaster 0 13 ≠ 15) ∧
    isConsumer 0 15 = false ∧ consumerMaster 0 15 = 15 := by
  and_intros <;> decide +kernel

theorem witness_ConsumerIndexRule : isConsumer 9 0 = true ∧ (oneEntry 9 true).ring[(9 : Fin 16)].stalled = [] ∧
    indexOf (oneEntry 9 true).ring[(9 : Fin 16)] (consumerKey 9 0) = some 0 ∧
    ((1 : Half) - 0).toNat ≤ lagOf (oneEntry 9 true).ring[(9 : Fin 16)] 0 ∧ lagOf (oneEntry 9 true).ring[(9 : Fin 16)] 0 < ((2 : Half) - 0).toNat ∧
    headEntry 9 (consumerKey 9 0) buoy = none := by
  and_intros <;> decide +kernel

def holding : State := onUsb 2 (fun u => { u with held := [(7, List.replicate 48 2)] }) buoy

theorem witness_StalledAndHeldEntries : holding.usb[(2 : Fin 4)].held = [(7, List.replicate 48 2)] ∧
    (∀ r : Fin 4, r ≠ 2 → holding.usb[r].held = []) ∧ (List.replicate 48 (2 : Byte)).length = 48 ∧ 1 ≤ credit 14 holding.ring[(14 : Fin 16)] ∧
    credit 14 (full 14 buoy).ring[(14 : Fin 16)] = 0 := by
  and_intros <;> decide +kernel

def captured (r : Report) (s : State) : State := { s with fc := { s.fc with feValid := true, capture := some r } }

theorem witness_FaultCollection : buoy.clk.vcc = true ∧ buoy.fc.feValid = false ∧ (captured (noted 0x17).rep buoy).fc.feValid = true ∧
    1 ≤ credit 8 buoy.ring[(8 : Fin 16)] ∧ credit 8 (captured (noted 0x17).rep (full 8 buoy)).ring[(8 : Fin 16)] = 0 ∧ buoy.fc.inject = [] ∧
    (12 : BitVec 4).toNat ≤ 12 ∧ Access.read ≠ .none ∧ mapPermits buoy 12 .read 0x50000000 = false ∧ mapPermits buoy 0 .read 0x50000000 = true ∧
    mapPermits buoy 2 .fetch 0x50000000 = false ∧ buoy.clk.crystal = true := by
  and_intros <;> decide +kernel

theorem witness_WardenListsAndTells : let r := (noted 0x17).rep
    (captured r buoy).fc.capture = some r ∧ buoy.warden.alive = true ∧ buoy.dev ≠ .standby ∧ restartsAnvil r = false ∧ spoilsEngine r = false ∧
    r.checker ∉ ([0x06, 0x30, 0x31, 0x32, 0x38] : List Byte) ∧ classOf (captured r buoy) r = some .note ∧ Cls.note ≠ .deviceStop ∧
    findFault (captured r buoy) r.checker r.unitKind r.unitIdx = none ∧ buoy.warden.standing.length < 512 ∧ buoy.ring[(9 : Fin 16)].stalled = [] ∧
    1 ≤ credit 9 buoy.ring[(9 : Fin 16)] := by
  intro r; and_intros <;> decide +kernel

theorem witness_WardenListsAndTells_config : headEntry 8 1 (oneEntry 8 true) = some ⟨[0], true⟩ ∧ byteAt ([0] : List Byte) 0 = 0 ∧
    wardenRuns (oneEntry 8 true) = true ∧
    (oneEntry 8 true).fc.inject = [] ∧ indexOf (oneEntry 8 true).ring[(8 : Fin 16)] 1 = some 0 := by
  and_intros <;> decide +kernel

theorem witness_EngineFailureAndRestart : wardenRuns buoy = true ∧ buoy.eng[(2 : Fin 12)].failed = false ∧ buoy.eng[(2 : Fin 12)].missed < 8 ∧
    8 ≤ (onEng 2 (fun e => { e with missed := 8 }) buoy).eng[(2 : Fin 12)].missed ∧ engineUp buoy 2 = true ∧ buoy.warden.standing.length < 512 ∧
    (within day buoy.tb buoy.eng[(2 : Fin 12)].fails).length < 3 ∧ 3 ≤ (within day buoy.tb [1, 2, 3]).length ∧
    (let s := later 100000000 (onEng 2 (fun e => { e with failed := true, fails := [1000] }) { buoy with warden := { buoy.warden with restartDue := [2] } })
     (2 : Fin 12) ∈ s.warden.restartDue ∧ wardenRuns s = true ∧ passed s (failedAt s 2) 1000 = true) ∧
    (let s := onEng 2 (fun e => { e with verify := true, frames := 64 }) buoy
     s.eng[(2 : Fin 12)].verify = true ∧ 64 ≤ s.eng[(2 : Fin 12)].frames ∧ engineUp s 2 = true) := by
  and_intros <;> decide +kernel

theorem witness_WardenWatchdogStopsDevice : (let s := later 400000 buoy
      s.warden.alive = true ∧ s.dev ≠ .deviceStop ∧ deepStandby s = false ∧ passed s s.warden.fedTb 4 = true ∧ s.fc.feValid = false) ∧
    safeMask buoy 31 = false ∧ buoy.load[(31 : Fin 32)].state ≠ .latched := by
  and_intros <;> decide +kernel

theorem witness_Frames : buoy.tbRuns = true ∧ standbyEdge buoy = buoy ∧ buoy.tb.toNat < 2 ^ 63 ∧ engineUp buoy 11 = true ∧ engineUp (asleep none) 1 = true ∧
    (4 : BitVec 12).getLsbD 11 = false ∧ (4 : BitVec 12).getLsbD 2 = true ∧
    (buoy.mbox.ready = true ∧ buoy.eng[(0 : Fin 12)].halted = false ∧ deviceRuns buoy = true ∧ buoy.mbox.portsDue = false ∧ buoy.ride.released = true ∧ 0 ≤ param buoy 0x201) ∧
    (headEntry 9 0 (oneEntry 9 true) = some ⟨[0], true⟩ ∧ (oneEntry 9 true).fc.inject = [] ∧ byteAt ([0] : List Byte) 0 ∈ ([0, 2, 4] : List Byte)) ∧
    (wardenRuns buoy = true ∧ ({ buoy.fc with pend := 1#64 <<< 0x17 } : Collector).pend = 1#64 <<< 0x17 ∧ buoy.warden.standing.length < 480 ∧
      findFault buoy (byte 0x17) 0 0 = none ∧
      classOf buoy { checker := byte 0x17, unitKind := 0, unitIdx := 0, cause := 0xFFFF } = some .note) := by
  and_intros <;> decide +kernel

/-! ### Witnesses: the Assay, loops, Annealing, the Ride -/

def entry5 (s : State) : State :=
  onGroup 0 (fun x => { x with entries := x.entries.set 5 { trigger := .software, inputs := [0] } }) s
def asked (l : List Urgent) (s : State) : State := onGroup 0 (fun x => { x with urgent := l }) s
def oneSet : SetRun := { entry := 5, inputs := [3], convs := [0, 1, 2, 3], tags := [3], count := 1 }
def ranSet (r : SetRun) (s : State) : State := onGroup 0 (fun x => { x with running := some r }) s
def cutSet (r : SetRun) (s : State) : State := onGroup 0 (fun x => { x with aborted := some r }) s

theorem witness_AssaySetsRun_sets : (let s := entry5 buoy;
      (5 : Fin 64) = fin64 (5 : Fin 60).val ∧ assayRuns s 0 = true ∧ triggerFalls s 0 5 0 = true ∧ triggerFalls buoy 0 (fin64 (5 : Fin 60).val) 0 = false ∧
      s.dev ≠ .standby ∧ s.group[(0 : Fin 4)].entries[(5 : Fin 64)].suspended = false ∧ entryBusy s.group[(0 : Fin 4)] 5 = false) ∧
    (let s := onGroup 0 (fun x => { x with waiting := [5] }) (entry5 buoy);
      entryBusy s.group[(0 : Fin 4)] 5 = true ∧ s.group[(0 : Fin 4)].running = none ∧ s.group[(0 : Fin 4)].aborted = none ∧
      s.group[(0 : Fin 4)].urgent = [] ∧ s.group[(0 : Fin 4)].remain = none ∧ kOf s 0 ≠ 0 ∧ startable s 0 = [5] ∧ followers s 0 5 = []) ∧
    ((asked [⟨false, 0, [0], none⟩] buoy).group[(0 : Fin 4)].urgent = [⟨false, 0, [0], none⟩] ∧ 1 ≤ kOf buoy 0) ∧
    ((ranSet oneSet buoy).group[(0 : Fin 4)].running = some oneSet ∧ 1 ≤ credit (groupRing 0) buoy.ring[groupRing 0] ∧
      oneSet.inputs = [fin48 3] ∧ oneSet.convs = [0, 1, 2, 3] ∧ buoy.conv[(0 : Fin 16)].healthy = true ∧ buoy.fc.inject = [] ∧ buoy.group[(0 : Fin 4)].failedIn.getLsbD 3 = false) := by
  and_intros <;> decide +kernel

theorem witness_AssaySetsRun_converters : ([fin48 0].all (fun i => inputDefined 0 i.val) = true ∧ hardwareInputs 0 [fin48 0] = true ∧
      oneSet.entry.val < 62 ∧ partners (ranSet oneSet buoy) 0 oneSet Group.running = []) ∧
    ((cutSet oneSet buoy).group[(0 : Fin 4)].aborted = some oneSet ∧ oneSet.inputs.length ≤ kOf buoy 0 ∧
      partners (cutSet oneSet buoy) 0 oneSet Group.aborted = []) ∧
    (convGroup 0 = 0 ∧ assayRuns buoy 0 = true ∧ calibrationDue (later 2000000 buoy) 0 = true ∧ buoy.conv[(0 : Fin 16)].healthy = true ∧
      refOk 0 (corrected buoy.conv[(0 : Fin 16)] 0).1 = true ∧ refOk 2048 (corrected buoy.conv[(0 : Fin 16)] 2048).1 = true ∧
      refOk (18432 / 5) (corrected buoy.conv[(0 : Fin 16)] 3686).1 = true ∧ ((0 : BitVec 12).toNat : Q) ≠ (3686 : BitVec 12).toNat) ∧
    (captureRuns buoy 0 = false ∧ wardenRuns buoy = true ∧
      passed (later 100000000000 buoy) buoy.group[(0 : Fin 4)].checkTb (wardenKey buoy 0x801 : Q) = true ∧
      checkPasses buoy.conv[(0 : Fin 16)] [512, 2048, 3584, 0, 2048, 3686] = true ∧ checkPasses buoy.conv[(0 : Fin 16)] [] = false ∧
      buoy.conv[(0 : Fin 16)].fails = 0 ∧ 1 ≤ ({ buoy.conv[(0 : Fin 16)] with fails := 1 } : Conv).fails) ∧
    (passed (later 100000000000 buoy) buoy.group[(0 : Fin 4)].pathTb (pathSlot buoy 0) = true ∧ (0 : Fin 48) = buoy.group[(0 : Fin 4)].pathNext ∧
      healthyConvs buoy 0 = [0, 1, 2, 3] ∧ buoy.group[(0 : Fin 4)].failedIn.getLsbD 0 = false ∧
      (((corrected buoy.conv[(0 : Fin 16)] 2064).1 : Q) - 2048).abs ≤ 16 ∧ 16 < (((corrected buoy.conv[(0 : Fin 16)] 2065).1 : Q) - 2048).abs ∧
      buoy.group[(0 : Fin 4)].pathFails.getLsbD 0 = false ∧
      (onGroup 0 (fun x => { x with pathFails := 1 }) buoy).group[(0 : Fin 4)].pathFails.getLsbD 0 = true) := by
  and_intros <;> decide +kernel

/-- Channel c switches. -/
def runs (c : Fin 16) (s : State) : State := onChan c (fun h => { h with enabled := true }) s

theorem witness_RingBoundary : buoy.clk.vcc = true ∧ buoy.chan[(0 : Fin 16)].restHold = false ∧
    (feedsRide buoy 0 = true ∧ ({ runs 0 buoy with ride := { buoy.ride with ovStop := true } } : State).ride.ovStop = true) ∧
    (chanLow buoy 0 = 0 ∧ buoy.chan[(0 : Fin 16)].offDue = false ∧ switching buoy 0 = false ∧ tracksZero buoy 0 = false) ∧
    (let s := onChan 0 (fun h => { h with stops := [.sourceOv], fresh := false }) (runs 0 buoy); switching s 0 = false ∧ tracksZero s 0 = true) ∧
    (onChan 0 (fun h => { h with offDue := true }) buoy).chan[(0 : Fin 16)].offDue = true ∧
    (let s := runs 0 buoy; switching s 0 = true ∧ waitingPhases s 0 = [] ∧ hiccupDue s 0 = false ∧
      (∀ k ∈ healthyPhases s 0, dueCause s.phase[k] = none) ∧ annRunning s.chan[(0 : Fin 16)].ann.state = false ∧
      s.chan[(0 : Fin 16)].revCount = 0 ∧ isUsbSource s 0 = false ∧ s.chan[(0 : Fin 16)].restDue = false) := by
  and_intros <;> decide +kernel

def hic (h : Hic) (n : Nat) (s : State) : State := onChan 0 (fun x => { x with hic := h, retry := n, limCount := 1000, enabled := true }) s

theorem witness_LimitsAndPhaseLoss_channel : (switching (runs 0 buoy) (chanLow (runs 0 buoy) (chanOfPhase 0)) = true ∧
      buoy.phase[(0 : Fin 28)].populated = true ∧ buoy.phase[(0 : Fin 28)].healthy = true ∧ supplied buoy.phase[(0 : Fin 28)] = true ∧
      inBlanking buoy.chan[(0 : Fin 16)] buoy.phase[(0 : Fin 28)] 12000 = false ∧
      inBlanking { buoy.chan[(0 : Fin 16)] with mode := .portLeg, period := 25600 } { buoy.phase[(0 : Fin 28)] with d1 := 1 / 2 } 10 = true ∧
      annRunning (runs 0 buoy).chan[chanLow (runs 0 buoy) (chanOfPhase 0)].ann.state = false) ∧
    (hiccupDue (hic .softStart 7 buoy) 0 = true ∧ hiccupDue buoy 0 = false ∧ chanLow buoy 0 = 0 ∧ buoy.chan[(0 : Fin 16)].ann.state ≠ .verifying ∧
      (∀ k ∈ healthyPhases buoy 0, dueCause buoy.phase[k] = none) ∧
      (hic .softStart 7 buoy).chan[(0 : Fin 16)].retry < (hic .softStart 7 buoy).chan[(0 : Fin 16)].lim.nRet ∧
      (hic .softStart 8 buoy).chan[(0 : Fin 16)].lim.nRet ≤ (hic .softStart 8 buoy).chan[(0 : Fin 16)].retry ∧
      isUsbSource buoy 0 = false) ∧
    ((hic .off 1 buoy).chan[(0 : Fin 16)].hic = .off ∧ (hic .off 1 buoy).chan[(0 : Fin 16)].offByCmd = false ∧
      (hic .off 1 buoy).chan[(0 : Fin 16)].enabled = true ∧
      released (hic .off 1 buoy) 0 = true ∧ waitingPhases (hic .off 1 buoy) 0 = [] ∧
      released (onChan 0 (fun h => { h with stops := [.thermalHw] }) (hic .off 1 buoy)) 0 = false) ∧
    buoy.chan[(0 : Fin 16)].hic = .switching ∧ (hic .softStart 0 buoy).chan[(0 : Fin 16)].hic = .softStart := by
  and_intros <;> decide +kernel

theorem witness_LimitsAndPhaseLoss_phase : nHealthy (onPhase 0 (fun x => { x with healthy := false }) buoy) 0 = 0 ∧
    ((2 : BitVec 3).toNat ≤ 5 ∧ causeDue (onPhase 0 (fun x => { x with openIn := 4 }) buoy).phase[(0 : Fin 28)] 2 = true ∧
      causeDue buoy.phase[(0 : Fin 28)] 2 = false) ∧
    (let s := onPhase 0 (fun x => { x with probation := 1 }) buoy;
      s.phase[(0 : Fin 28)].healthy = true ∧ s.phase[(0 : Fin 28)].probation = 1) ∧
    (let s := onPhase 0 (fun x => { x with pinned := #v[0, 0, 256, 255] }) buoy;
      s.phase[(0 : Fin 28)].notReached.getLsbD 2 = false ∧ 256 ≤ s.phase[(0 : Fin 28)].pinned[(2 : Fin 4)] ∧
      s.phase[(0 : Fin 28)].pinned[(3 : Fin 4)] < 256) ∧
    buoy.clk.vdrvOk = true ∧ buoy.dev ≠ .deviceStop ∧
    (let s : State := { runs 0 buoy with clk := { buoy.clk with vdrvOk := false } };
      s.clk.vdrvOk = false ∧ switching { s with clk := { s.clk with vdrvOk := true, vdrvLow := false } } 0 = true) ∧
    (let s := onChan 0 (fun h => { h with trans := { running := true } }) (runs 0 buoy);
      s.chan[(0 : Fin 16)].trans.running = true ∧ s.chan[(0 : Fin 16)].trans.suspended = false ∧ switching s 0 = true ∧ isUsbSource s 0 = false) := by
  and_intros <;> decide +kernel

def annealing (st : AnnState) (retried : Bool) (s : State) : State :=
  onChan 0 (fun h => { h with ann := { h.ann with state := st, retried := retried } }) s
/-- A plant of 10 µH, 100 µF and 1 mΩ. -/
def plant : Plant := { l := 10000, rl := 5000, c := 1000, esr := 1000, g := 0, fc := 10000, pm := 600, gm := 100 }

theorem witness_AnnealingRuns : (let s := later 10000000 (annealing .waiting false (runs 0 buoy)); annTurn s 0 = true ∧ annTurn buoy 0 = false) ∧
    (let s := later 6000000000 (annealing .waiting false buoy); s.chan[(0 : Fin 16)].ann.state = .waiting ∧ msCounts 60000 ≤ since s s.chan[(0 : Fin 16)].ann.deferTb) ∧
    (let s := later 1000000 (annealing .preparing false buoy); s.chan[(0 : Fin 16)].ann.state = .preparing ∧ msCounts 10 ≤ since s s.chan[(0 : Fin 16)].ann.stateTb) ∧
    (let s := onChan 0 (fun h => { h with ann := { h.ann with chips := 100000 } }) (annealing .injecting false buoy);
      s.chan[(0 : Fin 16)].ann.state = .injecting ∧ chipsTotal s.chan[(0 : Fin 16)].fsw ≤ s.chan[(0 : Fin 16)].ann.chips) ∧
    (annealing .fitting false buoy).chan[(0 : Fin 16)].ann.state = .fitting ∧
    (annealing .fitting true buoy).chan[(0 : Fin 16)].ann.retried = true ∧ (annealing .fitting false buoy).chan[(0 : Fin 16)].ann.retried = false ∧
    (let s := later 5000000 (annealing .verifying false buoy);
      s.chan[(0 : Fin 16)].ann.state = .verifying ∧ msCounts 50 ≤ since s s.chan[(0 : Fin 16)].ann.stateTb ∧
      s.chan[(0 : Fin 16)].ann.verPp ≤ max (3 * s.chan[(0 : Fin 16)].ann.prepPp) (5 / 100 * flowLimit s 0) ∧
      max (3 * s.chan[(0 : Fin 16)].ann.prepPp) (5 / 100 * flowLimit s 0) < 1000000) := by
  and_intros <;> decide +kernel

/-- What the analysis engine finds is the die's own (log 113): a fit within the ranges passes, one over the residual or out of them fails;
a set is found for the first plant and none for a plant whose zero lies below every crossover. -/
theorem witness_AnnealingRuns_fits : fitOk (plant, 15) = true ∧ fitOk (plant, 16) = false ∧ fitOk ({ plant with l := 100 }, 0) = false ∧
    (∀ s : State, ∀ rs, fitOf s 0 rs = (plant, 15) → fitOk (fitOf s 0 rs) = true) := by
  refine ⟨by decide +kernel, by decide +kernel, by decide +kernel, fun s rs h => ?_⟩
  rw [h]; decide +kernel

def tapIs (k : TapState) (a b : Bool) (s : State) : State := { s with tap := { s.tap with state := k, active := a, blocking := b } }
def srcAt (k : Path) (s : State) : State := onSrc 0 (fun x => { x with path := k }) s
def usbAt (k : Path) (s : State) : State := onUsb 0 (fun x => { x with path := k }) s

theorem witness_RideAndTaproot_ride : buoy.clk.vcc = true ∧ buoy.ride.ovStop = false ∧ (2 : Fin 5) ≠ buoy.ride.tier ∧
    buoy.ride.shed.getLsbD 3 = false ∧
    (let s := onLoad 1 (fun l => { l with commanded := true, cls := 3 }) buoy; shedTouches s 3 1 = true ∧ shedTouches s 3 2 = false) ∧
    (let s := onUsb 0 (fun u => { u with source := true, tc := .attSrc }) buoy;
      s.usb[(0 : Fin 4)].source = true ∧ s.usb[(0 : Fin 4)].tc = .attSrc ∧ s.usb[(0 : Fin 4)].cls = 0 ∧ s.ride.shed.getLsbD 0 = false) ∧
    (let s : State := onLoad 1 (fun l => { l with commanded := true, cls := 2 }) { buoy with ride := { buoy.ride with shed := 0x0C } };
      lowestShed s 2 = true ∧ loadEnabled { s with ride := { s.ride with shed := 8 } } 1 = true ∧ s.load[(1 : Fin 32)].state = .off) ∧
    (buoy.mbox.ready = true ∧ deviceRuns buoy = true) ∧
    (let s : State := { runs 0 buoy with ride := { buoy.ride with ovStop := true } };
      s.ride.ovStop = true ∧ feedsRide s 0 = true ∧ switching { s with ride := { s.ride with ovStop := false } } 0 = true) := by
  and_intros <;> decide +kernel

theorem witness_RideAndTaproot_tap : (let s := tapIs .armed false false buoy;
      s.tap.state = .armed ∧ tapAllowed s = true ∧ 17999 < s.ride.th.vFM ∧ s.tap.uvHold = false ∧ tapUv s = 0 ∧ ¬ 9000 < s.ride.th.vFM / 2 ∧
      8999 < s.ride.th.vFM / 2) ∧
    (tapIs .cold false false buoy).tap.state = .cold ∧ (tapEngaged (tapIs .fast true true buoy) = true ∧
      (tapIs .fast true true buoy).tap.active = true ∧ (tapIs .fast true true buoy).tap.blocking = true) ∧
    (tapIs .tripped false false buoy).tap.state = .tripped ∧
    (let s : State := { buoy with warden := { buoy.warden with keys := [(0x20E, 1000)] } }; tapUv s ≠ 0 ∧ s.tap.uvHold = false ∧ tapUv s ≤ 12000) ∧
    (srcWithdrawable (srcAt .delivering buoy) 0 = true ∧ buoy.src[(0 : Fin 8)].cWithdraw.hits = false ∧ 1 < vWd buoy 0 ∧
      reversedTwice (onChan 0 (fun h => { h with revCount := 2 }) buoy) 0 = true ∧ reversedTwice buoy 0 = false) ∧
    (usbAt .delivering buoy).usb[(0 : Fin 4)].handover = false ∧ 3669 < usbWd buoy.usb[(0 : Fin 4)] ∧
    ((0 : Fin 8).val = (0 : Fin 4).val ∧ (usbAt .delivering buoy).usb[(0 : Fin 4)].path = .delivering) ∧
    (onSrc 0 (fun x => { x with handover := true }) buoy).src[(0 : Fin 8)].handover = true ∧
    (onUsb 0 (fun x => { x with handover := true }) buoy).usb[(0 : Fin 4)].handover = true := by
  and_intros <;> decide +kernel

/-! ### Witnesses: source and battery ports -/

/-- Port 0 configured as class k. -/
def cls (k : Int) (s : State) : State := withKeys [(0x300, k)] s
def sweep0 (s : State) : State := onSrc 0 (fun x => { x with sweeping := true, vOc := 20000 }) s
/-- Two cycles are a wave source's. -/
def waves : SweepRec := { stage := .back, cycles := 2 }
/-- 250 ms of a steady 20 V behind the port, and of one that swings by a quarter. -/
def steady (bad : Option (Fin 5)) : QualRec := { tb := some 1000, v := { sum := 60000, n := 3, min := some 20000, max := some 20000 }, bad := bad }
def qualified (q : QualRec) (s : State) : State := onSrc 0 (fun x => { x with qual := q }) (srcAt .qualifying s)

theorem witness_SourcePortsQualify : (srcActive buoy 0 = true ∧ buoy.src[(0 : Fin 8)].path = .absent ∧ buoy.src[(0 : Fin 8)].handover = false ∧
      buoy.src[(0 : Fin 8)].blocked = false) ∧ (srcAt .debounce buoy).src[(0 : Fin 8)].path = .debounce ∧
    (let s := later 5000000 (onSrc 0 (fun x => { x with pathTb := 1000 }) (srcAt .debounce buoy));
      srcActive s 0 = true ∧ 5000000 ≤ (s.tb - s.src[(0 : Fin 8)].pathTb).toNat ∧ srcClass s 0 = 0 ∧ srcClass (cls 1 s) 0 ≠ 0) ∧
    (srcAt .qualifying buoy).src[(0 : Fin 8)].path = .qualifying ∧ buoy.src[(0 : Fin 8)].cQualFail.hits = false ∧
    buoy.src[(0 : Fin 8)].sweeping = false ∧
    (let s := later 25000000 (qualified (steady none) (cls 1 buoy));
      s.src[(0 : Fin 8)].path = .qualifying ∧ s.src[(0 : Fin 8)].sweeping = false ∧ qualOver s 0 = true ∧ qualVerdict s 0 = none ∧
      qualVerdict (later 25000000 (qualified (steady (some 1)) (cls 1 buoy))) 0 = some 1 ∧ qualOver buoy 0 = false) ∧
    (6000000000 ≤ ((later 6000000000 buoy).tb - buoy.src[(0 : Fin 8)].blockTb).toNat ∧ buoy.src[(0 : Fin 8)].undet < 5) ∧
    (let s := later 1000000000 (sweep0 (srcAt .qualifying buoy));
      s.src[(0 : Fin 8)].sweeping = true ∧ s.src[(0 : Fin 8)].swp.stage = .observe ∧ 1000000000 ≤ (s.tb - s.src[(0 : Fin 8)].swp.tb).toNat ∧
      s.src[(0 : Fin 8)].qual.bad = none ∧ (steady (some 3)).bad ≠ none) ∧
    (let s := onSrc 0 (fun x => { x with swp := waves }) (sweep0 (srcAt .qualifying buoy));
      s.src[(0 : Fin 8)].path = .qualifying ∧ s.src[(0 : Fin 8)].sweeping = true ∧ s.src[(0 : Fin 8)].swp.stage = .back ∧
      classify s.src[(0 : Fin 8)].vOc (pIdle s) s.src[(0 : Fin 8)].swp ≠ 0 ∧ classify s.src[(0 : Fin 8)].vOc (pIdle s) { waves with cycles := 0 } = 0) ∧
    (let s := onChan 0 (fun h => { h with ramp := 1 }) (srcAt .ramping buoy); s.src[(0 : Fin 8)].path = .ramping ∧ rampOver s (chanOfSrc 0) = true) ∧
    (let s := onChan 8 (fun h => { h with ramp := 1 }) (usbAt .ramping buoy); s.usb[(0 : Fin 4)].path = .ramping ∧ rampOver s (chanOfUsb 0) = true) ∧
    (srcEn buoy 0 = true ∧ paramAt (cls 1 buoy) 0x300 0 ≠ 0 ∧ paramAt (cls 0 buoy) 0x300 0 = 0 ∧ buoy.src[(0 : Fin 8)].ovStop = false ∧
      buoy.src[(0 : Fin 8)].cOv.hits = false) ∧
    (onSrc 0 (fun x => { x with ovStop := true }) buoy).src[(0 : Fin 8)].ovStop = true := by
  and_intros <;> decide +kernel

def tracks (k : Track) (f : Src → Src) (s : State) : State := onSrc 0 (fun x => f { x with track := k, vOc := 20000 }) (srcAt .delivering s)

/-! A window of 1832 blocks: 2 mW in the newer half, none in the older. Its autocorrelation falls with the lag in a straight line. -/

theorem step_mean (m : Nat) (h : 0 < m) : meanOf (List.replicate m 2 ++ List.replicate m 0) = 1 := by
  have : (m : Q) ≠ 0 := by exact_mod_cast h.ne'
  unfold meanOf
  rw [if_neg (by cases m <;> simp_all [List.replicate_succ])]
  simp only [List.sum_append, List.sum_replicate, List.length_append, List.length_replicate, nsmul_eq_mul]
  push_cast; field_simp; ring

theorem step_corr (n l : Nat) (h : 0 < n + l) :
    autoCorr (List.replicate (n + l) 2 ++ List.replicate (n + l) 0) l = 1 - 3 * l / (2 * ((n + l : Nat) : Q)) := by
  have hm : (((n + l : Nat)) : Q) ≠ 0 := by exact_mod_cast h.ne'
  have hz : List.zipWith (· * ·) (List.replicate (n + l) (1 : Q) ++ List.replicate (n + l) (-1))
      ((List.replicate (n + l) (1 : Q) ++ List.replicate (n + l) (-1)).drop l) =
      List.replicate n 1 ++ (List.replicate l (-1) ++ List.replicate n 1) := by
    rw [List.drop_append, List.drop_replicate, List.length_replicate, show n + l - l = n by omega, show l - (n + l) = 0 by omega, List.drop_zero]
    conv => lhs; arg 2; rw [List.replicate_add, List.append_assoc]
    conv => lhs; arg 3; rw [Nat.add_comm n l, List.replicate_add]
    rw [List.zipWith_append (by simp), List.zipWith_append (by simp), List.zipWith_replicate', List.zipWith_replicate', List.zipWith_replicate]
    norm_num
  unfold autoCorr
  simp only [step_mean _ h, List.map_append, List.map_replicate]
  norm_num only [hz, List.map_append, List.map_replicate, List.sum_append, List.sum_replicate, nsmul_eq_mul]
  rw [if_neg (by intro e; apply hm; push_cast at e ⊢; linarith)]
  push_cast at hm ⊢; field_simp; ring

theorem foldl_min_replicate (a b : Q) (n : Nat) (h : b ≤ a) : (List.replicate n a).foldl min b = b := by
  induction n with
  | zero => rfl
  | succ n ih => rw [List.replicate_succ, List.foldl_cons, min_eq_left h, ih]

theorem step_rank (m k : Nat) (h : 0 < m) (hk : k ≤ 2 * m) :
    rank (List.replicate m 2 ++ List.replicate m 0) k = if k ≤ m then 0 else 2 := by
  obtain ⟨n, rfl⟩ : ∃ n, m = n + 1 := ⟨m - 1, by omega⟩
  unfold rank
  have f2 : ((List.replicate (n + 1) (2 : Q) ++ List.replicate (n + 1) 0).filter (· ≤ 2)).length = 2 * (n + 1) := by
    rw [List.filter_append, List.filter_replicate, List.filter_replicate]; norm_num; omega
  have f0 : ((List.replicate (n + 1) (2 : Q) ++ List.replicate (n + 1) 0).filter (· ≤ 0)).length = n + 1 := by
    rw [List.filter_append, List.filter_replicate, List.filter_replicate]; norm_num
  rw [List.filter_append, List.filter_replicate, List.filter_replicate, f2, f0]
  simp only [decide_eq_true_eq, hk, if_true]
  by_cases c : k ≤ n + 1
  · rw [if_pos c, if_pos c, List.replicate_succ, List.cons_append]
    simp only [List.foldl_append, foldl_min_replicate _ _ _ (le_refl (2 : Q))]
    rw [List.replicate_succ, List.foldl_cons]
    norm_num [foldl_min_replicate]
  · rw [if_neg c, if_neg c, List.replicate_succ, List.append_nil]
    exact foldl_min_replicate _ _ _ (le_refl _)

theorem step_depth : modDepth (List.replicate 916 2 ++ List.replicate 916 0) = 1 := by
  unfold modDepth
  rw [List.length_append, List.length_replicate, List.length_replicate, step_rank _ _ (by decide) (by decide), step_rank _ _ (by decide) (by decide)]
  norm_num

def stepCorr (l : Nat) : Q := if l ≤ 916 then 1 - 3 * l / 1832 else autoCorr (List.replicate 916 2 ++ List.replicate 916 0) l

theorem stepCorr_eq : autoCorr (List.replicate 916 2 ++ List.replicate 916 0) = stepCorr := by
  funext l
  unfold stepCorr
  split
  · have := step_corr (916 - l) l (by omega)
    rw [show 916 - l + l = 916 by omega] at this
    rw [this]; norm_num
  · rfl

def stepWindow : List (Q × Q × Bool) := List.replicate 916 (2, 0, false) ++ List.replicate 916 (0, 0, false)

theorem stepWindow_marked : (stepWindow.filter fun w => w.2.2) = [] := by
  unfold stepWindow; rw [List.filter_append, List.filter_replicate, List.filter_replicate]; rfl

theorem stepWindow_length : stepWindow.length = 1832 := by
  unfold stepWindow; rw [List.length_append, List.length_replicate, List.length_replicate]

def swellable (k : Track) (u : Option Q) : State :=
  tracks k (fun x => { x with window := stepWindow, sinceEval := 61, swellOk := u }) (cls 1 buoy)

theorem swellable_window (k : Track) (u : Option Q) : (swellable k u).src[(0 : Fin 8)].window = stepWindow := by
  exact congrArg Src.window (upd_self _ _ _)

/-- What the second evaluation locks on: L* is 31, A(31) 0.949 and the depth 1. -/
theorem witness_SourcePortsTrack_swell : windowP (swellable .tracking none).src[(0 : Fin 8)] = List.replicate 916 2 ++ List.replicate 916 0 ∧
    lagStar (autoCorr (List.replicate 916 2 ++ List.replicate 916 0)) = 31 ∧
    1 / 2 ≤ autoCorr (List.replicate 916 2 ++ List.replicate 916 0) 31 ∧
    5 / 100 ≤ modDepth (List.replicate 916 2 ++ List.replicate 916 0) ∧
    refineLag (autoCorr (List.replicate 916 2 ++ List.replicate 916 0)) 31 = 31 ∧ 0 < swellPeriod 31 ∧ (swellPeriod 31 - 2).abs ≤ 5 / 100 * 2 := by
  rw [stepCorr_eq, step_depth]
  and_intros
  case refine_1 =>
    unfold windowP; rw [swellable_window]; unfold stepWindow; rw [List.map_append, List.map_replicate, List.map_replicate]
  all_goals decide +kernel

theorem witness_SourcePortsTrack_criteria : ∀ k ∈ ([.tracking, .scan] : List Track), ∀ u ∈ ([none, some 2] : List (Option Q)),
    let s := swellable k u
    s.src[(0 : Fin 8)].path = .delivering ∧ srcClass s 0 = 1 ∧ 1831 ≤ s.src[(0 : Fin 8)].window.length ∧
    10 * windowMarked s.src[(0 : Fin 8)] ≤ 1831 ∧ 61 ≤ s.src[(0 : Fin 8)].sinceEval ∧ s.src[(0 : Fin 8)].swell = none ∧
    trackOption s 0 0 = true ∧ s.src[(0 : Fin 8)].swellOk = u ∧ s.src[(0 : Fin 8)].track = k := by
  simp only [List.forall_mem_cons, in_nil, and_true, windowMarked, swellable_window, stepWindow_marked, stepWindow_length]
  and_intros <;> decide +kernel

/-- A window without any swell, and a lock already told twice under 0.35. -/
def lost : Swell := { tSw := 8, a := 1, lowA := 2 }
def flat : State :=
  tracks .swell (fun x => { x with window := List.replicate 1831 (0, 0, false), sinceEval := 61, swell := some lost }) (cls 1 buoy)

theorem flat_window : flat.src[(0 : Fin 8)].window = List.replicate 1831 (0, 0, false) := by
  exact congrArg Src.window (upd_self _ _ _)

theorem flat_corr (n l : Nat) : autoCorr (List.replicate n 0) l = 0 := by
  have m : meanOf (List.replicate n (0 : Q)) = 0 := by
    unfold meanOf; split
    · rfl
    · rw [List.sum_replicate, smul_zero, zero_div]
  unfold autoCorr
  simp only [m, List.map_replicate, List.sum_replicate, sub_zero, mul_zero, smul_zero, if_true]

theorem witness_SourcePortsTrack_loss : flat.src[(0 : Fin 8)].path = .delivering ∧ srcClass flat 0 = 1 ∧
    1831 ≤ flat.src[(0 : Fin 8)].window.length ∧ 10 * windowMarked flat.src[(0 : Fin 8)] ≤ 1831 ∧ 61 ≤ flat.src[(0 : Fin 8)].sinceEval ∧
    flat.src[(0 : Fin 8)].swell = some lost ∧ lost.skipped < 30 ∧ 2 ≤ lost.lowA ∧
    (∀ l, autoCorr (windowP flat.src[(0 : Fin 8)]) l < 35 / 100) := by
  unfold windowMarked windowP
  rw [flat_window, List.length_replicate, List.filter_replicate]
  refine ⟨?_, ?_, ?_, ?_, ?_, ?_, ?_, ?_, fun l => ?_⟩
  case refine_9 => rw [List.map_replicate, flat_corr]; norm_num
  all_goals decide +kernel

theorem witness_SourcePortsTrack : (let s := tracks .tracking (fun x => { x with poCount := 1000, hist := List.replicate 64 (5, 6, 7) }) (runs 0 (cls 1 buoy));
      s.src[(0 : Fin 8)].path = .delivering ∧ engineUp s (srcEngine 0) = true ∧ switching s (chanOfSrc 0) = true ∧ suspended s 0 = false ∧
      poFrames s ≤ s.src[(0 : Fin 8)].poCount ∧ meanHist (halfFrames s) s.src[(0 : Fin 8)] = (5, 6, 7) ∧
      s.src[(0 : Fin 8)].track = .tracking ∧ lowBound s 0 ≤ highBound s 0 ∧ s.src[(0 : Fin 8)].vIn ≤ lowBound s 0) ∧
    (tracks .waveRunning id (runs 0 buoy)).src[(0 : Fin 8)].track = .waveRunning ∧
    (let s := later 360000000000 (tracks .tracking id (runs 0 (cls 1 buoy)));
      s.src[(0 : Fin 8)].path = .delivering ∧ srcClass s 0 = 1 ∧ trackOption s 0 1 = true ∧ trackOption s 0 2 = true ∧ suspended s 0 = false ∧
      switching s (chanOfSrc 0) = true ∧ scanReady s s.src[(0 : Fin 8)] = true ∧ annHolds s 0 = false ∧
      30000000 ≤ 256 * ({ s.src[(0 : Fin 8)] with dim := 200000 } : Src).dim) ∧
    (let s := tracks .scan (fun x => { x with scanPow := 1000, scanPts := List.replicate 32 (9000, 1021) }) buoy;
      s.src[(0 : Fin 8)].track = .scan ∧ 32 ≤ s.src[(0 : Fin 8)].scanPts.length ∧ scanBest s.src[(0 : Fin 8)] = (9000, 1021) ∧
      annHolds s 0 = false ∧ s.src[(0 : Fin 8)].lockDue = none ∧ 102 / 100 * s.src[(0 : Fin 8)].scanPow < 1021 ∧
      s.src[(0 : Fin 8)].swell = none ∧ ¬ 102 / 100 * s.src[(0 : Fin 8)].scanPow < 1020) ∧
    (tracks .scan id buoy).src[(0 : Fin 8)].scanPts.length < 32 ∧
    (tracks .scan (fun x => { x with lockDue := some (8, 1, 1) }) buoy).src[(0 : Fin 8)].lockDue = some (8, 1, 1) ∧
    (let s := later 6000000000 (tracks .idle id buoy);
      s.src[(0 : Fin 8)].track = .idle ∧ s.src[(0 : Fin 8)].trial = false ∧ kappaAt s s.chan[chanOfSrc 0].lim.order s.ride.v = 1 ∧ annHolds s 0 = false ∧
      6000000000 ≤ (s.tb - s.src[(0 : Fin 8)].idleTb).toNat) ∧
    (let s := later 100000000 (tracks .idle (fun x => { x with trial := true, trialTb := some 1000 }) buoy);
      s.src[(0 : Fin 8)].trial = true ∧ s.src[(0 : Fin 8)].trialTb = some 1000 ∧ 100000000 ≤ (s.tb - 1000).toNat ∧ annHolds s 0 = false ∧
      2 * pIdle s ≤ accMean { sum := 1000, n := 1 } ∧ accMean { sum := 999, n := 1 } < 2 * pIdle s) ∧
    (let s := later 6000000000 (tracks .waveRunning (fun x => { x with eHist := [1, 2] }) buoy);
      suspended s 0 = false ∧ cycleOver s s.src[(0 : Fin 8)] = true ∧ waveLow s 0 = true) ∧
    (let s := tracks .wavePaused id buoy; s.src[(0 : Fin 8)].track = .wavePaused ∧ s.src[(0 : Fin 8)].v.last < vWaveRun s 0 + 1000 ∧
      vWaveRun s 0 + 1000 ≤ ({ last := 100000 } : Acc).last) ∧
    (let s := later 30000000000 (tracks .tracking (fun x => { x with kept := some { tSw := 8, a := 1 } }) (cls 1 buoy));
      s.src[(0 : Fin 8)].kept.isSome = true ∧ 30000000000 ≤ (s.tb - s.src[(0 : Fin 8)].keptTb).toNat ∧ paramAt s 0x300 0 ≠ 0 ∧
      paramAt (cls 0 s) 0x300 0 = 0) := by
  and_intros <;> decide +kernel

def charge (k : Charge) (f : Bat → Bat) (s : State) : State := onBat 0 (fun x => f { x with charge := k }) s
/-- Two seconds of a Qualification of eight segments at v mV, with the first check that broke. -/
def qualOf (v : Q) (bad : Option Nat) : BatQual :=
  { time := 2, v := { sum := 26400, n := 1 }, count := 8, bad := bad,
    cells := Vector.ofFn fun k => if k.val < 8 then { sum := v, n := 1 } else {} }
def qualifying (v : Q) (bad : Option Nat) : State := charge .qualification (fun x => { x with qual := qualOf v bad }) buoy

theorem witness_BatteryCharging_qualification : (let s := qualifying 3300 none;
      s.bat[(0 : Fin 4)].charge = .qualification ∧ s.bat[(0 : Fin 4)].qualWait = false ∧ s.bat[(0 : Fin 4)].qualRetry = false ∧
      batActive s 0 = true ∧ s.bat[(0 : Fin 4)].afterClear = false ∧ ripe s.bat[(0 : Fin 4)].qual.time 2 = true ∧ qualCheck s 0 true = 0 ∧
      qualCheck s 0 false = 2 ∧ segs (withWire 1 0x001F0000 s) 0 = 0 ∧ s.bat[(0 : Fin 4)].accepted = none) ∧
    qualCheck (qualifying 3300 (some 1)) 0 true = 1 ∧ qualCheck (qualifying 3300 (some 3)) 0 true = 3 ∧
    ripe buoy.bat[(0 : Fin 4)].qual.time 2 = false ∧
    (let s := charge .qualification (fun x => { x with qualRetry := true, retryTime := 60 }) buoy;
      s.bat[(0 : Fin 4)].qualRetry = true ∧ ripe s.bat[(0 : Fin 4)].retryTime 60 = true) ∧
    (let s := charge .bulk (fun x => { x with timer := 1000000 }) buoy;
      s.bat[(0 : Fin 4)].charge = timerState .bulk ∧ timerLimit s 0 s.bat[(0 : Fin 4)].charge ≤ s.bat[(0 : Fin 4)].timer ∧
      s.bat[(0 : Fin 4)].fitDue = false ∧ (0 : Q) < timerLimit s 0 .bulk) := by
  and_intros <;> decide +kernel

def resting (s : State) : State := onBat 0 (fun x => { x with resting := true }) s

theorem witness_BatteryCharging_rests : pulseOver (charge .absorption (fun x => { x with
      iProg := 1000, pulseTime := 10000, iHist := List.replicate 39 (-1000) }) (runs 12 buoy)) 0 = true ∧
    (let s := onChan 12 (fun h => { h with restHold := true }) (onBat 0 (fun x => { x with restTime := 10 }) (resting buoy));
      s.bat[(0 : Fin 4)].resting = true ∧ s.chan[chanOfBat 0].restHold = true ∧ ripe s.bat[(0 : Fin 4)].restTime (restLimit s.bat[(0 : Fin 4)]) = true) ∧
    probeDue (charge .bulk (fun x => { x with probeTime := 10 }) (runs 12 buoy)) 0 = true := by
  and_intros <;> decide +kernel

/-- A capture of one segment: −5 A until t0, none 1 µs later, and a segment that falls by 50 mV: 10 mΩ. -/
def captured1 (i : Q) (probing : Bool) : State := charge .bulk (fun x => { x with
  fitDue := true, probing := probing, nSeg := 1, restT0 := some 100000, capI := [(100100, i), (99200, -5000)],
  capV := [(103100, 0, 3350), (102100, 0, 3350), (99200, 0, 3400)] }) buoy
/-- Segments relaxed to v mV at 10 mΩ each. -/
def fits (v : Q) (ok : Bool) : List SegFit := List.replicate 8 ⟨v, 10, ok⟩

/-- A capture without its edge fails; a probe's passes by its resistance alone. -/
theorem witness_BatteryCharging_captures : (let s := captured1 (-5000) false;
      s.bat[(0 : Fin 4)].fitDue = true ∧ captureFits s 0 = ([], false) ∧ fitPassed s 0 [] false false = false ∧ fitPassed s 0 [] false true = false) ∧
    (let s := captured1 0 true;
      s.bat[(0 : Fin 4)].probing = true ∧ (captureFits s 0).1.map (·.rOhm) = [10] ∧ fitPassed s 0 (captureFits s 0).1 (captureFits s 0).2 true = true) ∧
    (charge .absorption (fun x => { x with fitFails := 7 }) buoy).bat[(0 : Fin 4)].fitFails = 7 := by
  and_intros <;> decide +kernel

/-- What decay the analysis engine finds is the die's own (log 122): fits that meet its conditions pass, and terminate at 4 V. -/
theorem witness_BatteryCharging_fits : (let s := charge .absorption (fun x => { x with fitDue := true, nSeg := 8 }) buoy;
      fitPassed s 0 (fits 3400 true) true false = true ∧ fitPassed s 0 (fits 3400 false) true false = false ∧
      s.bat[(0 : Fin 4)].charge = .absorption ∧ ocvMet s 0 (fits 4000 true) = true ∧ s.bat[(0 : Fin 4)].passes = 0) ∧
    (charge .absorption (fun x => { x with passes := 1 }) buoy).bat[(0 : Fin 4)].passes = 1 ∧ (charge .bulk id buoy).bat[(0 : Fin 4)].charge ≠ .absorption := by
  and_intros <;> decide +kernel

/-- Port 0 a flooded lead-acid bank, equalised every 30 days. -/
def flooded (l : List (Half × Int)) : State := withKeys ((0x460, 30) :: l) (withWire 0 0x0E010104 buoy)

theorem witness_BatteryCharging_discharge : pauseOver (charge .bulk (fun x => { x with paused := true, pauseTime := 43200 }) buoy) 0 = true ∧
    (let s := later 300000000000000 (charge .bulk id (flooded [(0x400, 7), (0x404, 1000)])); equaliseElapsed s 0 = true ∧ cNom s 0 ≠ 0) ∧
    (let s := later 300000000000000 (charge .bulk id (flooded [(0x400, 7), (0x404, 0)])); equaliseElapsed s 0 = true ∧ cNom s 0 = 0) ∧
    (let s := charge .bulk (fun x => { x with cutTime := 1 }) buoy; cutDue s 0 = true ∧ s.bat[(0 : Fin 4)].cCut.hits = false) ∧
    (let s := charge .hold (fun x => { x with cutTime := 1 }) buoy; cutDue s 0 = true ∧ s.bat[(0 : Fin 4)].charge = .hold) ∧
    restoreDue (charge .bulk (fun x => { x with cut := true, rstTime := 10 }) buoy) 0 = true ∧
    restoreDue (onChan 12 (fun h => { h with stops := [.hold] }) (charge .hold (fun x => { x with rstTime := 10 }) buoy)) 0 = true ∧
    reserveQuiet (onBat 0 (fun x => { x with called := true, callTime := 10 }) buoy) 0 = true ∧
    primaryWire buoy 3 = true ∧ buoy.clk.vcc = true := by
  and_intros <;> decide +kernel

theorem witness_CellsAndTaps : (buoy.clk.vcc = true ∧ chem buoy 0 ≠ 0 ∧ chem buoy 0 ≠ 7 ∧ gangLow buoy 0 = 0 ∧ buoy.bat[(0 : Fin 4)].ovp = .armed ∧
      2 ≤ (recentTrips buoy.tb [1, 2]).length) ∧
    (let s := later 6000000000 (onBat 0 (fun x => { x with ovp := .stopped, ovpTb := 1000 }) buoy);
      s.bat[(0 : Fin 4)].ovp = .stopped ∧ 6000000000 ≤ (s.tb - s.bat[(0 : Fin 4)].ovpTb).toNat ∧
      ((later 5999999999 buoy).tb - 1000).toNat < 6000000000) ∧
    (onBat 0 (fun x => { x with ovp := .resetOnly }) buoy).bat[(0 : Fin 4)].ovp = .resetOnly ∧
    (tapsWatched buoy 0 = true ∧ putBit 0 3 true ≠ (0 : BitVec 16) ∧ buoy.bat[(0 : Fin 4)].tapStop = false ∧ buoy.bat[(0 : Fin 4)].charge ≠ .qualification) ∧
    (let s := onBat 0 (fun x => { x with tapStop := true, tapPasses := 8 }) buoy;
      tapsWatched s 0 = true ∧ s.bat[(0 : Fin 4)].tapStop = true ∧ s.bat[(0 : Fin 4)].tapPasses < 9) ∧
    9 ≤ (onBat 0 (fun x => { x with tapStop := true, tapPasses := 9 }) buoy).bat[(0 : Fin 4)].tapPasses ∧
    2 ≤ (onBat 0 (fun x => { x with bleedAge := 2 }) buoy).bat[(0 : Fin 4)].bleedAge ∧ buoy.bat[(0 : Fin 4)].bleedAge < 2 := by
  and_intros <;> decide +kernel

/-! ### Witnesses: USB ports -/

def port0 (f : Usb → Usb) (s : State) : State := onUsb 0 f s
def tcIs (t : TypeC) (v : CcView) (s : State) : State := port0 (fun u => { u with tc := t, view := v }) s
/-- Port 0 attached as a sink, as a source. -/
def sink (f : Usb → Usb) : State := port0 f (tcIs .attSnk .rp30 buoy)
def srcRole (f : Usb → Usb) : State := port0 (fun u => f { u with source := true, dfp := true }) (tcIs .attSrc (.rd false) buoy)

theorem witness_UsbAttachAndDetach_cc : (usbEn buoy 1 = false ∧ usbEn buoy 0 = true ∧ buoy.clk.vcc = true ∧ usbActive buoy 0 = true) ∧
    (let s := tcIs .unattSnk .open_ buoy; s.usb[(0 : Fin 4)].tc = .unattSnk ∧ isRp .rp30 = true ∧ s.usb[(0 : Fin 4)].handover = false) ∧
    isRd (.rd true) = true ∧ isRd .open_ = false ∧ attached .attSrc = true ∧
    (let s := tcIs .attWaitSnk .rp30 buoy;
      isRp s.usb[(0 : Fin 4)].view = true ∧ rolePolicy s 0 ≠ 3 ∧ rolePolicy (withKeys [(0x600, 3)] s) 0 = 3 ∧ s.usb[(0 : Fin 4)].barred = false) ∧
    isRp (tcIs .attWaitSnk .open_ buoy).usb[(0 : Fin 4)].view = false ∧
    (let s := tcIs .attWaitSrc (.rd false) buoy;
      isRd s.usb[(0 : Fin 4)].view = true ∧ rolePolicy s 0 = 2 ∧ rolePolicy (withKeys [(0x600, 1)] s) 0 ≠ 2) := by
  and_intros <;> decide +kernel

theorem witness_UsbAttachAndDetach_ends : (let s := tcIs .attSnk .open_ buoy;
      isRp s.usb[(0 : Fin 4)].view = false ∧ s.usb[(0 : Fin 4)].seq ≠ .swapWait ∧ s.usb[(0 : Fin 4)].seq ≠ .swapSink ∧
      s.usb[(0 : Fin 4)].source = false ∧ s.usb[(0 : Fin 4)].handover = false) ∧
    (let s := port0 (fun u => { u with view := .open_ }) (srcRole id);
      isRd s.usb[(0 : Fin 4)].view = false ∧ s.usb[(0 : Fin 4)].seq ≠ .drain ∧ switching s (chanOfUsb 0) = false ∧
      switching (runs 8 s) (chanOfUsb 0) = true) ∧
    (isDrp buoy 0 = true ∧ usbActive buoy 0 = true ∧ buoy.usb[(0 : Fin 4)].barred = false ∧
      isRd (tcIs .unattSnk (.rd false) buoy).usb[(0 : Fin 4)].view = true ∧ isRp (tcIs .unattSrc .rp15 buoy).usb[(0 : Fin 4)].view = true) ∧
    ((tcIs .trySnk (.rd false) buoy).usb[(0 : Fin 4)].tc = .trySnk ∧ (tcIs .trySrc .open_ buoy).usb[(0 : Fin 4)].tc = .trySrc ∧
      (tcIs .tryWaitSrc .open_ buoy).usb[(0 : Fin 4)].tc = .tryWaitSrc ∧ (tcIs .tryWaitSnk .open_ buoy).usb[(0 : Fin 4)].tc = .tryWaitSnk) ∧
    (isRp .open_ = false ∧ (tcIs .errorRecovery .open_ buoy).usb[(0 : Fin 4)].tc = .errorRecovery ∧
      (port0 (fun u => { u with held60 := true }) (tcIs .disabled .open_ buoy)).usb[(0 : Fin 4)].held60 = true) ∧
    (∀ q ∈ ([.none, .hrSource, .drain, .swapDown] : List Seq), let s := srcRole fun u => { u with dschg := true, seq := q };
      s.usb[(0 : Fin 4)].dschg = true ∧ s.usb[(0 : Fin 4)].seq = q) ∧
    (let s := sink id; s.usb[(0 : Fin 4)].tc = .attSnk ∧ s.usb[(0 : Fin 4)].source = false ∧ s.usb[(0 : Fin 4)].ovStop = false ∧
      115 / 100 * vHigh s.usb[(0 : Fin 4)] + 500 < 6251 ∧
      (recentOv s.tb [1]).length < 2 ∧ 2 ≤ (recentOv s.tb [1, 2]).length ∧ s.usb[(0 : Fin 4)].hrCount < 2 ∧ inSwap s.usb[(0 : Fin 4)] = false) ∧
    (srcRole fun u => { u with vconnOn := true }).usb[(0 : Fin 4)].vconnOn = true := by
  simp only [List.forall_mem_cons, in_nil, and_true]; and_intros <;> decide +kernel

theorem witness_UsbMessagesAndSink_rx : (let s := sink fun u => { u with sop := { stored := some 3 } };
      attached s.usb[(0 : Fin 4)].tc = true ∧ (layerOf s.usb[(0 : Fin 4)] false).stored = some 3 ∧ (layerOf s.usb[(0 : Fin 4)] false).stored ≠ some 4 ∧
      PdMsg.accept ≠ .softReset ∧ PdMsg.accept ≠ .goodCrc ∧ hasRow .prSwap = true ∧ s.usb[(0 : Fin 4)].holdLost = false ∧
      s.usb[(0 : Fin 4)].bist = false ∧ inTransition s.usb[(0 : Fin 4)] = false ∧ s.usb[(0 : Fin 4)].held = [] ∧ 1 ≤ credit 14 s.ring[(14 : Fin 16)] ∧ s.mbox.ready = true) ∧
    (let s := sink fun u => { u with ask := .drSwap }; s.usb[(0 : Fin 4)].ask = .drSwap ∧ s.usb[(0 : Fin 4)].askGone = false) ∧
    (sink fun u => { u with bist := true }).usb[(0 : Fin 4)].bist = true := by
  and_intros <;> decide +kernel

/-- One entry of Q15 for port 0, of a kind, and one for port 1. -/
def toSend (kind : Byte) : State := ringOf 15 [⟨pad 48 [0, kind], true⟩] (sink id)
def toOther : State := ringOf 15 [⟨pad 48 [1, 0], true⟩] (sink id)

theorem witness_UsbMessagesAndSink_tx : indexOf (toSend 0).ring[(15 : Fin 16)] (BitVec.ofNat 4 (0 : Fin 4).val) = some 0 ∧
    nextForPort 0 0 (toOther.ring[(15 : Fin 16)].entries.drop (toOther.ring[(15 : Fin 16)].entries.length - lagOf toOther.ring[(15 : Fin 16)] 0)) = none ∧
    nextForPort 0 0 ((toSend 0).ring[(15 : Fin 16)].entries.drop ((toSend 0).ring[(15 : Fin 16)].entries.length - lagOf (toSend 0).ring[(15 : Fin 16)] 0))
      = some (pad 48 [0, 0], 1) ∧
    nextForPort 0 0 ((toSend 1).ring[(15 : Fin 16)].entries.drop ((toSend 1).ring[(15 : Fin 16)].entries.length - lagOf (toSend 1).ring[(15 : Fin 16)] 0))
      = some (pad 48 [0, 1], 1) ∧
    byteAt (pad 48 [0, 1]) 1 = 1 ∧ byteAt (pad 48 [0, 0]) 1 ≠ 1 ∧ (toSend 0).usb[(0 : Fin 4)].txBusy = none ∧
    (let s := sink fun u => { u with txBusy := some (pad 48 [0, 0]) };
      s.usb[(0 : Fin 4)].txBusy = some (pad 48 [0, 0]) ∧ s.usb[(0 : Fin 4)].txTries + 1 < (if s.usb[(0 : Fin 4)].pd20 then 3 else 2)) ∧
    (let s := sink fun u => { u with txTries := 1 }; (if s.usb[(0 : Fin 4)].pd20 then 3 else 2) ≤ s.usb[(0 : Fin 4)].txTries + 1) := by
  and_intros <;> decide +kernel

/-- A fixed object of 5 V, 3 A. -/
def fixed5 : Word := 0x0001912C
def pps5 : Contract := { kind := .pps, pos := 2, mv := 9000, ma := 1000 }

theorem witness_UsbMessagesAndSink_policy : (let s := sink id;
      s.usb[(0 : Fin 4)].contract.kind = .none ∧ s.usb[(0 : Fin 4)].next.kind = .none ∧ s.mbox.ready = true ∧ s.usb[(0 : Fin 4)].capWait < 2 ∧
      s.usb[(0 : Fin 4)].hrCount < 2 ∧ (chooseObject s 0 [fixed5]).isSome = true ∧ chooseObject s 0 [] = none ∧ s.usb[(0 : Fin 4)].ask = .none ∧
      s.usb[(0 : Fin 4)].seq = .none ∧ s.usb[(0 : Fin 4)].qualBad = false ∧ s.clk.vdrvOk = true ∧ s.usb[(0 : Fin 4)].sinkTxOk = true ∧
      inTransition s.usb[(0 : Fin 4)] = false) ∧
    (sink fun u => { u with path := .qualifying }).usb[(0 : Fin 4)].path = .qualifying ∧
    (sink fun u => { u with sinkTxOk := false }).usb[(0 : Fin 4)].sinkTxOk = false ∧
    inTransition (srcRole fun u => { u with seq := .moving }).usb[(0 : Fin 4)] = true ∧
    2 ≤ (sink fun u => { u with capWait := 2 }).usb[(0 : Fin 4)].capWait ∧
    (let s := sink fun u => { u with next := { pps5 with kind := .fixed } }; s.usb[(0 : Fin 4)].next.kind ≠ .none ∧ s.usb[(0 : Fin 4)].ask ≠ .request ∧
      (usbAt .delivering s).usb[(0 : Fin 4)].path = .delivering) ∧
    (let s := sink fun u => { u with contract := pps5, epr := true }; s.usb[(0 : Fin 4)].contract.kind = .pps ∧ s.usb[(0 : Fin 4)].epr = true) ∧
    (sink fun u => { u with ask := .request }).usb[(0 : Fin 4)].ask = .request ∧ (sink fun u => { u with ask := .vconnSwap }).usb[(0 : Fin 4)].ask = .vconnSwap ∧
    (sink fun u => { u with ask := .discover }).usb[(0 : Fin 4)].ask = .discover := by
  and_intros <;> decide +kernel

theorem witness_UsbSourceSwapsAndResets_requests : (let s := srcRole fun u => { u with offered := [fixed5] };
      s.usb[(0 : Fin 4)].tc = .attSrc ∧ s.usb[(0 : Fin 4)].source = true ∧ s.mbox.ready = true ∧ s.usb[(0 : Fin 4)].seq = .none ∧
      (requested s.usb[(0 : Fin 4)] 0x1004B000).isSome = true ∧ requested s.usb[(0 : Fin 4)] 0x1004B400 = none ∧
      s.usb[(0 : Fin 4)].reqSlot = none) ∧
    (srcRole fun u => { u with seq := .accepted }).usb[(0 : Fin 4)].seq = .accepted ∧
    ((srcRole fun u => { u with seq := .swapDown }).usb[(0 : Fin 4)].seq = .swapDown ∧
      switching (runs 8 (srcRole fun u => { u with seq := .swapDown })) (chanOfUsb 0) = true) ∧
    (srcRole fun u => { u with contract := pps5 }).usb[(0 : Fin 4)].contract.kind = .pps := by
  and_intros <;> decide +kernel

theorem witness_UsbSourceSwapsAndResets_swaps : (attached (srcRole id).usb[(0 : Fin 4)].tc = true ∧ prSwapOk (srcRole id) 0 = true ∧
      swapOption (srcRole id) 0 2 = true ∧ prSwapOk (withKeys [(0x624, 0)] (srcRole id)) 0 = false ∧
      (srcRole id).usb[(0 : Fin 4)].seq ≠ .accepted ∧ (srcRole id).usb[(0 : Fin 4)].seq ≠ .moving ∧ sourceBusy (srcRole id).usb[(0 : Fin 4)] = false ∧
      sourceBusy (srcRole fun u => { u with ask := .drSwap }).usb[(0 : Fin 4)] = true ∧
      (sink fun u => { u with ask := .drSwap }).usb[(0 : Fin 4)].ask ≠ .none ∧ prSwapOk (withKeys [(0x624, 0)] (sink id)) 0 = false ∧
      (srcRole fun u => { u with vconnSrc := true }).usb[(0 : Fin 4)].vconnSrc = true ∧ swapOption (srcRole id) 0 3 = true) ∧
    (let s := srcRole fun u => { u with contract := pps5 };
      s.usb[(0 : Fin 4)].swapDone = false ∧ isDrp s 0 = true ∧ swapOption s 0 1 = true ∧ s.usb[(0 : Fin 4)].ask = .none ∧
      s.usb[(0 : Fin 4)].seq = .none ∧ s.usb[(0 : Fin 4)].contract.kind = .pps ∧ s.usb[(0 : Fin 4)].source ≠ swapOption s 0 5 ∧
      s.usb[(0 : Fin 4)].pd20 = false) ∧
    (let s := withKeys [(0x624, 63)] (sink id); s.usb[(0 : Fin 4)].source ≠ swapOption s 0 5 ∧ s.usb[(0 : Fin 4)].sinkTxOk = true) ∧
    ((srcRole fun u => { u with seq := .swapStart, handover := true }).usb[(0 : Fin 4)].handover = true ∧
      (srcRole fun u => { u with seq := .swapStart }).usb[(0 : Fin 4)].seq = .swapStart) ∧
    (let s := srcRole fun u => { u with waitDue := true, ask := .prSwap }; s.usb[(0 : Fin 4)].waitDue = true ∧ askMessage s.usb[(0 : Fin 4)].ask ≠ 0) := by
  and_intros <;> decide +kernel

theorem witness_UsbSourceSwapsAndResets_resets : (srcRole fun u => { u with hrAsked := true }).usb[(0 : Fin 4)].hrAsked = true ∧
    ((srcRole id).usb[(0 : Fin 4)].hrCount < 2 ∧ inSwap (srcRole id).usb[(0 : Fin 4)] = false ∧ 2 ≤ (srcRole fun u => { u with hrCount := 2 }).usb[(0 : Fin 4)].hrCount) ∧
    ({ srcRole id with mbox := {} } : State).mbox.ready = false ∧
    (let s := srcRole fun u => { u with seq := .hrSource }; s.usb[(0 : Fin 4)].tc = .attSrc ∧ s.usb[(0 : Fin 4)].seq = .hrSource ∧
      s.usb[(0 : Fin 4)].partnerDrives = false) ∧
    (sink fun u => { u with seq := .hrSink }).usb[(0 : Fin 4)].seq = .hrSink ∧ (sink fun u => { u with seq := .hrSink, handover := true }).usb[(0 : Fin 4)].handover = true ∧
    (sink id).usb[(0 : Fin 4)].vbus.last ≤ 4400 ∧ 4400 < (sink fun u => { u with vbus := { last := 5000 } }).usb[(0 : Fin 4)].vbus.last := by
  and_intros <;> decide +kernel

/-! ### Witnesses: loads, temperature, telemetry -/

def loadIs (k : LoadState) (n : Nat) (s : State) : State := onLoad 3 (fun l => { l with state := k, retry := n }) s

theorem witness_LoadPorts : (loadIs .softStart 0 buoy).load[(3 : Fin 32)].state = .softStart ∧ (loadIs .limiting 0 buoy).load[(3 : Fin 32)].state = .limiting ∧
    (loadIs .on 0 buoy).load[(3 : Fin 32)].state = .on ∧ (loadIs .retryWait 0 buoy).load[(3 : Fin 32)].state = .retryWait ∧
    (loadIs .latched 0 buoy).load[(3 : Fin 32)].state = .latched ∧ buoy.load[(3 : Fin 32)].state = .off ∧
    (∀ k ∈ ([.softStart, .limiting, .retryWait, .on] : List LoadState), let s := later 100000000000 (loadIs k 0 buoy);
      passed s s.load[(3 : Fin 32)].tb s.load[(3 : Fin 32)].ssMs = true ∧ passed s s.load[(3 : Fin 32)].tb s.load[(3 : Fin 32)].tFlt = true ∧
      passed s s.load[(3 : Fin 32)].tb s.load[(3 : Fin 32)].retOff = true ∧ passed s s.load[(3 : Fin 32)].tb (1000 * s.load[(3 : Fin 32)].retReset) = true) ∧
    (let l := buoy.load[(3 : Fin 32)]; l.limMv ≤ shuntMv l 4000 ∧ shuntMv l 3999 < l.limMv ∧ shuntMv l 3599 < 9 / 10 * l.limMv ∧
      9 / 10 * l.limMv ≤ shuntMv l 3600 ∧ 2 * l.limMv < shuntMv l 8001) ∧
    (loadIs .on 3 buoy).load[(3 : Fin 32)].retry < (loadIs .on 3 buoy).load[(3 : Fin 32)].retCnt ∧
    (loadIs .on 4 buoy).load[(3 : Fin 32)].retCnt ≤ (loadIs .on 4 buoy).load[(3 : Fin 32)].retry ∧
    loadFaultHits .fastTrip (loadIs .on 0 buoy).load[(3 : Fin 32)] = false ∧ loadEnabled buoy 3 = false ∧
    loadEnabled (onLoad 3 (fun l => { l with commanded := true }) buoy) 3 = true ∧ buoy.ride.v - 300 ≤ 23700 ∧ 23699 < buoy.ride.v - 300 := by
  simp only [List.forall_mem_cons, in_nil, and_true]; and_intros <;> decide +kernel

def shut (f : Therm → Therm) (s : State) : State := { s with therm := f { s.therm with comp := 4, above := 4 } }

theorem witness_ThermalAndTelemetry : (wardenRuns State.reset = false ∧ wardenRuns buoy = true ∧ buoy.group[(3 : Fin 4)].lost = false ∧
      buoy.therm.rotDue = false ∧ ({ buoy.therm with rotDue := true } : Therm).rotDue = true) ∧
    (State.reset.clk.vcc = false ∧ buoy.clk.vcc = true ∧ buoy.therm.compOff.getLsbD 11 = false ∧ buoy.therm.comp.getLsbD 11 = false ∧
      shutdownStands buoy = false ∧ shutdownStands (shut id buoy) = true ∧ (∀ p : Fin 4, buoy.bat[p].resting = false)) ∧
    (releaseDue (later 10000000 (shut (fun x => { x with calm := some 1000 }) buoy)) = true ∧ releaseDue buoy = false ∧
      shutdownCounts (shut id buoy) = true ∧ (within 360000000000 buoy.tb [1]).length < 2 ∧ 2 ≤ (within 360000000000 buoy.tb [1, 2]).length ∧
      (findFault { buoy with warden := { buoy.warden with standing := [noted 0x39] } } 0x39 0 0).isSome = true) ∧
    (restoreReady buoy 19 = false ∧
      restoreReady (later 6000000000 (onSensor 19 (fun x => { x with restoring := true, failed := true, restTb := 1000 }) buoy)) 19 = true) ∧
    (State.reset.mbox.ready = false ∧ buoy.mbox.ready = true ∧ param (withKeys [(0x803, 1)] buoy) 0x803 ≠ 0 ∧ param (withKeys [(0x803, 0)] buoy) 0x803 = 0) ∧
    (({ buoy with snap := { buoy.snap with due := some [] } } : State).snap.due = some [] ∧ buoy.snap.due = none) := by
  and_intros <;> decide +kernel

/-! ### Small steps: expected values from the spec's own examples, or by hand from its tables -/

/-- R389: the check value of the header CRC. -/
theorem test_crc16 : crc16 [0x31, 0x32, 0x33, 0x34, 0x35, 0x36, 0x37, 0x38, 0x39] = 0x29B1 := by decide +kernel
/-- Chapter 18: the check value of the image CRC. -/
theorem test_crc32 : crc32 [0x31, 0x32, 0x33, 0x34, 0x35, 0x36, 0x37, 0x38, 0x39] = 0xCBF43926 := by decide +kernel

/-- Chapter 15, "one command over SPI": Q0 and Q1 as the example finds them. -/
def spiExample : State :=
  let s : State := { buoy with ring := buoy.ring.set 0 { buoy.ring[(0 : Fin 16)] with p := 0x23, cons := [(0, 0x23)] } }
  { s with ring := s.ring.set 1 { s.ring[(1 : Fin 16)] with p := 0x11, entries := [⟨[0], true⟩], cons := (ringConsumers 1).map fun m => (m, 0x10) } }

/-- Step 1: the eight bytes of the Q0 block. -/
theorem test_spi_q0_block : after (.spiFrame [0x80, 0x00, 0x01, 0, 0, 0, 0, 0, 0, 0, 0, 0]) spiExample
    (fun t => t.host.out.drop 4 == [0x23, 0x00, 0x23, 0x00, 0x10, 0x00, 0x10, 0x04]) = true := by decide +kernel
/-- Step 3: the doorbell advances PIDX to 0x0024. -/
theorem test_spi_doorbell : after (.spiFrame [0x00, 0x08, 0x01, 0x01, 0x00, 0x00, 0x00]) spiExample
    (fun t => t.ring[(0 : Fin 16)].p == 0x24) = true := by decide +kernel
/-- Step 5: PIDX and CIDX of Q1. -/
theorem test_spi_q1_block : after (.spiFrame [0x80, 0x10, 0x01, 0, 0, 0, 0, 0]) spiExample
    (fun t => t.host.out.drop 4 == [0x11, 0x00, 0x10, 0x00]) = true := by decide +kernel
/-- Step 7: CIDX written, the word committed at its second byte. -/
theorem test_spi_release : after (.spiFrame [0x00, 0x12, 0x01, 0x11, 0x00]) spiExample
    (fun t => indexOf t.ring[(1 : Fin 16)] 13 == some 0x11) = true := by decide +kernel

/-- Chapter 16, "a drop across the sequence wrap": events 0xFFFFFFFE to 0 were lost; the next takes 1 for the loss, 2 itself. -/
theorem test_events_lost : after (.tierChange 2)
    { buoy with tb := 1000000, mbox := { buoy.mbox with evLost := 3, evFirst := 0xFFFFFFFE }, warden := { buoy.warden with evSeq := 1 } }
    (fun t => (t.ring[(2 : Fin 16)].entries.map fun e => (ofLe (slice e.bytes 0 4), ofLe (slice e.bytes 4 2))) == [(1, 0x0002), (2, 0x0201)] &&
      t.mbox.evLost == 0 && t.warden.evSeq == 3) = true := by decide +kernel

/-- Chapter 17, "moving the Ride target": both records are accepted as a set, and a Floor offset of 24 % alone is ORDER. -/
def targetAndFloor : List Byte := [0x00, 0x02, 0x02, 0x28, 0x0A, 0x06, 0x02, 0x02, 0xB4, 0x00]
theorem test_param_set_accepted : after .paramSet (offer 0x0100 targetAndFloor buoy)
    (fun t => (t.ring[(1 : Fin 16)].entries.map fun e => (ofLe (slice e.bytes 4 2), slice e.bytes 8 5)) == [(5, [0x00, 0x00, 0x00, 0x00, 0x02])] &&
      param t 0x200 == 2600 && param t 0x206 == 180) = true := by decide +kernel
theorem test_param_set_order : after .paramSet (offer 0x0100 [0x06, 0x02, 0x02, 0xF0, 0x00] buoy)
    (fun t => param t 0x206 == param buoy 0x206 && (t.ring[(1 : Fin 16)].entries.map fun e => slice e.bytes 8 2) == [[0x21, 0x00]]) = true := by decide +kernel

/-- Chapter 6: the EMF of 15.8 V and 7.0 A behind 2.0 Ω is 29.8 V, and V_IN_REF is half of it. -/
theorem test_wave_reference : let x : Src := { v := { mean := 15800 }, i := { mean := 7000 }, rg := 2000, match_ := 1, firstCycle := false }
    eEst x = 29800 ∧ eEst x * x.match_ / (1 + x.match_) = 14900 := by and_intros <;> decide +kernel

/-- Chapter 4, "retargeting a source mid-slew": T_TR of 6.2 ms, then of 5.212 ms from 32.56 V. -/
theorem test_transition_timers : (setRef 3 36000 5 (onChan 3 (fun h => { h with refOut := 30000 }) buoy)).chan[(3 : Fin 16)].trans.limit = 62 / 10 ∧
    slewed 30000 36000 5 (512 / 1000000) = 32560 ∧
    (setRef 3 31500 5 (onChan 3 (fun h => { h with refOut := 32560 }) buoy)).chan[(3 : Fin 16)].trans.limit = 5212 / 1000 := by
  and_intros <;> decide +kernel

/-- R142 and chapter 5's example: the gang of ports 0 and 1, six phases populated, loses phase 13.1: 5/6 of its clamps. -/
def gang12 : State :=
  onPhase 17 (fun x => { x with openIn := 4 }) { withKeys [(0x47C, 1)] buoy with
    phase := (buoy.phase.set 15 { populated := false }).set 19 { populated := false } }
theorem test_phase_lost : nPop gang12 12 = 6 ∧ after (.phaseFailure 17 2) gang12 (fun t => phaseScale t 12 == 5 / 6 && chanLow t 13 == 12) = true := by
  and_intros <;> decide +kernel

/-- Chapter 8's example of the plating guard: 23.08 A, by the resistance. -/
theorem test_plating_guard : plating (withKeys [(0x404, 2800)] buoy) 0 { tLo := 4, band := some 1, probeSeen := true, probes := [[26 / 10]] } =
    (some (60000 / (26 / 10)), 3, 1) := by decide +kernel

/-- Chapter 10, "hard short": the fourth fault waits to retry, the fifth latches. -/
theorem test_load_latches : after (.loadFastTrip 5 20000) (onLoad 5 (fun l => { l with state := .on, retry := 4 }) buoy)
      (fun t => t.load[(5 : Fin 32)].state == .latched) = true ∧
    after (.loadFastTrip 5 20000) (onLoad 5 (fun l => { l with state := .on, retry := 3 }) buoy)
      (fun t => t.load[(5 : Fin 32)].state == .retryWait) = true := by and_intros <;> decide +kernel

/-- Chapter 12, "a sensor that fails high": the sixteenth deviating evaluation fails sensor 9 and uses 71.0 °C. -/
def hot9 : State :=
  let read (i : Fin 20) : Option Q := ([70, 70, 70, 70, 70, 72, 70, 70, 70, 138, 71, 70] : List Q)[i.val]?
  onSensor 9 (fun x => { x with read := true, raw := some 138, devs := 15, pair := some (5, 8) })
    { buoy with therm := { buoy.therm with rotDue := true, sensors := Vector.ofFn fun i => { next := read i } } }
theorem test_sensor_fails_high : after .temperatureEvaluation hot9
    (fun t => t.therm.sensors[(9 : Fin 20)].failed && t.therm.sensors[(9 : Fin 20)].used == 71 && t.therm.compOff.getLsbD 9) = true := by decide +kernel
/-- R317: T_J = 122 °C gives θ = 8/15. -/
theorem test_theta : thetaTerm 122 115 135 = 8 / 15 := by decide +kernel

/-- Chapter 11, "an urgent capture": a young set is aborted for it. -/
theorem test_urgent_aborts : after (.urgentRequest 0 true 0 [5] none false) (ranSet oneSet buoy)
    (fun t => t.group[(0 : Fin 4)].aborted.isSome && t.group[(0 : Fin 4)].running.isNone && t.group[(0 : Fin 4)].urgent.length == 1) = true := by
  decide +kernel

/-- R516, R517: the Clearing reset clears ARM and leaves the Dormant flags. -/
theorem test_clearing_reset : after .clearingReset { buoy with aon := { buoy.aon with arm := true, dormant := 4, reed := .holding true false } }
    (fun t => t.dev == .clearing && !t.aon.arm && t.aon.dormant == 4) = true := by decide +kernel

/-- R342: a counter stays at 65,535 and its flag is then set. -/
theorem test_counter_saturates : (Cnt.bump { n := 0xFFFE }).n = 0xFFFF ∧ (Cnt.bump { n := 0xFFFF }).n = 0xFFFF := by decide +kernel

/-- R337: a read of TB's low half latches the high half. -/
theorem test_tb_latch : after (.tbLoRead .spi) { buoy with tb := 0x0000000100000002 } (fun t => t.host.tbHiSpi == some 1) = true := by decide +kernel

/-- Chapter 19's example: a double-bit error of engine 10 is captured by checker 0x02 with its master and a read. -/
theorem test_double_bit : after (.eccError false 10 10 true 0x1234 .read 0) buoy
    (fun t => t.fc.feValid && t.fc.feChecker == 0x02 && t.fc.feMaster == 10) = true := by decide +kernel
end Sys2Proof.Tests
end

/-! A consumer's index write and its empty pop (R330): what an accepted write puts in the ring, what a bus error of an access
leaves and reports, and the statement on both. -/

namespace Sys2Proof.Machine
open Sys2Proof Sys2Proof.Safety

/-! ### States that keep every unit -/

theorem unitsKept_iff {s t : State} : UnitsKept s t ↔ ∃ r f w h m,
    t = { s with ring := r, fc := f, warden := w, host := h, mbox := m } := by
  constructor
  · intro h
    refine ⟨t.ring, t.fc, t.warden, t.host, t.mbox, ?_⟩
    rw [← h]
  · rintro ⟨r, f, w, h, m, rfl⟩
    rfl

theorem unitsKept_refl (s : State) : UnitsKept s s := rfl

theorem unitsKept_trans {s t u : State} (h1 : UnitsKept s t) (h2 : UnitsKept t u) : UnitsKept s u := by
  obtain ⟨r, f, w, h, m, rfl⟩ := unitsKept_iff.1 h1
  obtain ⟨r', f', w', h', m', rfl⟩ := unitsKept_iff.1 h2
  rfl

theorem unitsKept_of_same {s t : State} (h : SameButRings s t) : UnitsKept s t := by
  obtain ⟨r, p, a, q, rfl⟩ := same_iff.1 h
  rfl

theorem unitsKept_report (r : Report) (s : State) : UnitsKept s (report r s) := by
  unfold report
  repeat' split
  all_goals rfl

/-! ### A report, and a bus error made of one -/

/-- A report may place an entry on Q8; it moves no consumer of any ring. -/
theorem report_ring_cons (r : Report) (s : State) (q : Fin 16) : (report r s).ring[q.val].cons = s.ring[q.val].cons := by
  by_cases h : 8 = q
  · subst h
    unfold report
    repeat' split
    all_goals simp [place, dropReport]
  · rw [report_ring_other h]

theorem report_of_free_capture {s : State} (h : s.fc.feValid = false) (r : Report) :
    report r s = { s with fc := { s.fc with feAddr := r.addr, feMaster := r.master, feType := BitVec.ofNat 3 (accessCode r.access),
                                            feChecker := r.checker, feTb := s.tb, feValid := true, capture := some r } } := by
  simp [report, h]

/-- From s to t a bus error of master m with access type a was made, and checker k reported it: no consumer moved, no unit
changed, and a capture that was free holds the report, with every ring as it was (R27, R28, R489). -/
structure BusErrorMade (m : BitVec 4) (a : Access) (k : Byte) (s t : State) : Prop where
  cons : ∀ q : Fin 16, t.ring[q.val].cons = s.ring[q.val].cons
  units : UnitsKept s t
  capture : s.fc.feValid = false → t.ring = s.ring ∧ t.fc.feValid = true ∧
    t.fc.feType = BitVec.ofNat 3 (accessCode a) ∧ t.fc.feMaster = m ∧ t.fc.feChecker = k

theorem busErrorMade_report (r : Report) (s : State) : BusErrorMade r.master r.access r.checker s (report r s) where
  cons := report_ring_cons r s
  units := unitsKept_report r s
  capture h := by rw [report_of_free_capture h]; exact ⟨rfl, rfl, rfl, rfl, rfl⟩

/-- A host target's bus error is the report of checker 0x08; its error flags and causes are no unit's (R28). -/
theorem busErrorMade_hostErrorAt (b : HostBus) (a : Access) (addr : Word) (s : State) :
    BusErrorMade (busMaster b) a 0x08 s (hostErrorAt b a addr s) := by
  have key : ∃ h r, r.master = busMaster b ∧ r.access = a ∧ r.checker = 0x08 ∧
      hostErrorAt b a addr s = setCause 10 (report r { s with host := h }) := by
    cases b <;> exact ⟨_, _, rfl, rfl, rfl, rfl⟩
  obtain ⟨h, r, hm, ha, hk, e⟩ := key
  have made := busErrorMade_report r { s with host := h }
  rw [hm, ha, hk] at made
  rw [e]
  exact {
    cons := fun q => by rw [setCause_ring]; exact made.cons q
    units := unitsKept_trans (t := { s with host := h }) rfl (unitsKept_trans made.units (unitsKept_of_same (same_setCause _ _)))
    capture := by rw [setCause_ring, setCause_fc]; exact made.capture }

/-- An engine's bus error, other than of a fetch, is the report of checker 0x07 (R27). -/
theorem busErrorMade_masterError_engine {m : BitVec 4} {a : Access} (hm : m.toNat < 12) (ha : a ≠ .fetch) (addr : Word)
    (s : State) : BusErrorMade m a 0x07 s (masterError m a addr s) := by
  have h12 : m ≠ 12 := by rintro rfl; exact absurd hm (by decide)
  have h13 : m ≠ 13 := by rintro rfl; exact absurd hm (by decide)
  have h14 : m ≠ 14 := by rintro rfl; exact absurd hm (by decide)
  simp only [masterError, busError, h12, h13, h14, hm, ha, if_false, dif_pos]
  exact busErrorMade_report
    { checker := 0x07, master := m, access := a, unitKind := 7, unitIdx := m.zeroExtend 8, addr := addr } s

/-- A ring access of a PD PHY, master 15, has no further effect (log 109). -/
theorem masterError_phy (a : Access) (addr : Word) (s : State) : masterError 15 a addr s = s := by
  simp [masterError, busError]

/-! ### The consumers of a ring -/

/-- The rings whose consumer is the host. -/
def isHostRing (q : Fin 16) : Bool := q = 1 || q = 2 || q = 3

theorem consumerKey_of_host_ring {q : Fin 16} {m : BitVec 4} (hq : isHostRing q = true) (hm : isConsumer q m = true) :
    consumerKey q m = 13 := by
  revert q m; decide

/-- A consumer of a host ring is the host target whose accesses carry its master ID. -/
theorem busMaster_of_host_ring {q : Fin 16} {m : BitVec 4} (hq : isHostRing q = true) (hm : isConsumer q m = true) :
    busMaster (if m = 14 then .hbus else .spi) = m := by
  revert q m; decide

theorem consumerKey_of_inner_ring {q : Fin 16} (hq : isHostRing q = false) (m : BitVec 4) : consumerKey q m = m := by
  unfold isHostRing at hq
  simp [consumerKey, hq]

/-- Every other ring but Q15 has engines alone as consumers. -/
theorem consumer_is_engine {q : Fin 16} {m : BitVec 4} (hq : isHostRing q = false) (h15 : q ≠ 15)
    (hm : isConsumer q m = true) : m.toNat < 12 := by
  revert q m; decide

theorem consumerKey_of_q0 {m : BitVec 4} (hm : isConsumer 0 m = true) : consumerKey 0 m = 0 := by
  revert m; decide

theorem consumerMaster_of_ne {q : Fin 16} (h15 : q ≠ 15) (m : BitVec 4) : consumerMaster q m = m := by
  simp [consumerMaster, h15]

/-! ### Index writes -/

/-- With nothing stalled there is nothing to move to the ring. -/
theorem unstall_of_stalled_nil {q : Fin 16} {s : State} (h : s.ring[q.val].stalled = []) : unstall q s = s := by
  simp [unstall, unstallN, putRing, armAlert, h]

section
variable {q : Fin 16} {m : BitVec 4} {c j : Half} {s : State}

/-- A host's CIDX write within the live entries moves the index, and forgets the checked indices it passes (R378). -/
theorem writeCidx_within (b : HostBus) (hs : s.ring[q].stalled = []) (hc : indexOf s.ring[q] 13 = some c)
    (hj : (j - c).toNat ≤ lagOf s.ring[q] c) :
    writeCidx b q j s = putRing q (pruneChecked (moveIndex 13 j s.ring[q])) s := by
  simp only [writeCidx, hc, if_neg (Nat.not_lt.2 hj)]
  exact unstall_of_stalled_nil (by rw [putRing_self]; exact hs)

theorem writeCidx_beyond (b : HostBus) (hc : indexOf s.ring[q] 13 = some c) (hj : lagOf s.ring[q] c < (j - c).toNat) :
    writeCidx b q j s = hostError b .pop (0x100 + 0x10 * q.val) s := by
  simp only [writeCidx, hc, if_pos hj]

/-- An internal consumer's index write within the live entries moves the index; on Q0 the notes of who committed the commands
passed go with them. -/
theorem writeIndex_within (hs : s.ring[q].stalled = []) (hc : indexOf s.ring[q] (consumerKey q m) = some c)
    (hj : (j - c).toNat ≤ lagOf s.ring[q] c) :
    ∃ b, writeIndex q m j s =
      cmdFree s (putRing q (moveIndex (consumerKey q m) j s.ring[q]) { s with mbox := { s.mbox with q0By := b } }) := by
  refine ⟨if q = 0 then s.mbox.q0By.drop (j - c).toNat else s.mbox.q0By, ?_⟩
  simp only [writeIndex, hc, if_neg (Nat.not_lt.2 hj)]
  rw [unstall_of_stalled_nil (by rw [putRing_self]; split <;> exact hs)]
  split <;> rfl

theorem writeIndex_beyond (hc : indexOf s.ring[q] (consumerKey q m) = some c) (hj : lagOf s.ring[q] c < (j - c).toNat) :
    writeIndex q m j s = masterError (consumerMaster q m) .pop (entryAddr q j) s := by
  simp only [writeIndex, hc, if_pos hj]

/-- From s to t the index of consumer k of ring q moved to j: P, the other rings, the collector and the units are as before. -/
structure IndexMoved (q : Fin 16) (k : BitVec 4) (j : Half) (s t : State) : Prop where
  index : indexOf t.ring[q] k = some j
  p : t.ring[q].p = s.ring[q].p
  others : ∀ i : Fin 16, i ≠ q → t.ring[i] = s.ring[i]
  fc : t.fc = s.fc
  units : UnitsKept s t

/-- A state t that differs from s by a ring r put at q, and by what SameButRings allows, has moved the index that r holds. -/
theorem indexMoved_of_ring {k : BitVec 4} {t : State} {r : Ring} (hr : t.ring = s.ring.set q r) (hi : indexOf r k = some j)
    (hp : r.p = s.ring[q].p) (hf : t.fc = s.fc) (hu : SameButRings s t) : IndexMoved q k j s t where
  index := by simp [hr, hi]
  p := by simpa [hr] using hp
  others i hiq := by
    have : t.ring[i.val] = (putRing q r s).ring[i.val] := by simp only [hr, putRing_ring]
    exact this.trans (putRing_other (Ne.symm hiq) r s)
  fc := hf
  units := unitsKept_of_same hu

theorem indexMoved_writeCidx (b : HostBus) (hs : s.ring[q].stalled = []) (hc : indexOf s.ring[q] 13 = some c)
    (hj : (j - c).toNat ≤ lagOf s.ring[q] c) : IndexMoved q 13 j s (writeCidx b q j s) := by
  rw [writeCidx_within b hs hc hj]
  exact indexMoved_of_ring rfl (indexOf_move 13 j c _ hc) rfl rfl (same_putRing _ _ _)

theorem indexMoved_writeIndex (hs : s.ring[q].stalled = []) (hc : indexOf s.ring[q] (consumerKey q m) = some c)
    (hj : (j - c).toNat ≤ lagOf s.ring[q] c) : IndexMoved q (consumerKey q m) j s (writeIndex q m j s) := by
  obtain ⟨b, e⟩ := writeIndex_within hs hc hj
  rw [e]
  exact indexMoved_of_ring (by rw [cmdFree_ring]; rfl) (indexOf_move _ j c _ hc) rfl (by rw [cmdFree_fc]; rfl)
    (same_trans (t := putRing q _ { s with mbox := { s.mbox with q0By := b } }) rfl (same_cmdFree _ _))

/-! ### The commands -/

theorem exec_consumerIndexWrite_host (hv : s.clk.vcc = true) (hm : isConsumer q m = true) (hq : isHostRing q = true) :
    exec (.consumerIndexWrite q m j) s = .next (writeCidx (if m = 14 then .hbus else .spi) q j s) := by
  unfold isHostRing at hq
  simp only [exec, execConsumerIndexWrite, hv, hm, hq]
  rfl

theorem exec_consumerIndexWrite_inner (hv : s.clk.vcc = true) (hm : isConsumer q m = true) (hq : isHostRing q = false) :
    exec (.consumerIndexWrite q m j) s = .next (writeIndex q m j s) := by
  unfold isHostRing at hq
  simp only [exec, execConsumerIndexWrite, hv, hm, hq]
  rfl

/-- An index write within the live entries moves the index. -/
theorem consumerIndexWrite_within (hv : s.clk.vcc = true) (hm : isConsumer q m = true) (hs : s.ring[q].stalled = [])
    (hc : indexOf s.ring[q] (consumerKey q m) = some c) (hj : (j - c).toNat ≤ lagOf s.ring[q] c) :
    Completes (.consumerIndexWrite q m j) s (IndexMoved q (consumerKey q m) j s) := by
  cases hq : isHostRing q with
  | true =>
    have hk := consumerKey_of_host_ring hq hm
    rw [hk] at hc ⊢
    exact ⟨_, exec_consumerIndexWrite_host hv hm hq, indexMoved_writeCidx _ hs hc hj⟩
  | false => exact ⟨_, exec_consumerIndexWrite_inner hv hm hq, indexMoved_writeIndex hs hc hj⟩

/-- An index write backwards or beyond P is a bus error of its master with access type ring pop, on Q1 to Q3 of the host
checker; one of a PD PHY on Q15 changes nothing (log 109). -/
theorem consumerIndexWrite_beyond (hv : s.clk.vcc = true) (hm : isConsumer q m = true)
    (hc : indexOf s.ring[q] (consumerKey q m) = some c) (hj : lagOf s.ring[q] c < (j - c).toNat) :
    Completes (.consumerIndexWrite q m j) s fun t =>
      (q = 15 ∧ t = s) ∨ (q ≠ 15 ∧ BusErrorMade m .pop (if isHostRing q then 0x08 else 0x07) s t) := by
  cases hq : isHostRing q with
  | true =>
    refine ⟨_, exec_consumerIndexWrite_host hv hm hq, .inr ⟨by rintro rfl; exact absurd hq (by decide), ?_⟩⟩
    rw [consumerKey_of_host_ring hq hm] at hc
    rw [writeCidx_beyond _ hc hj]
    have made := busErrorMade_hostErrorAt (if m = 14 then .hbus else .spi) .pop
      (BitVec.ofNat 32 (0x50000000 + (0x100 + 0x10 * q.val))) s
    rw [busMaster_of_host_ring hq hm] at made
    exact made
  | false =>
    refine ⟨_, exec_consumerIndexWrite_inner hv hm hq, ?_⟩
    rw [writeIndex_beyond hc hj]
    by_cases h15 : q = 15
    · subst h15
      exact .inl ⟨rfl, masterError_phy _ _ s⟩
    · rw [consumerMaster_of_ne h15]
      exact .inr ⟨h15, busErrorMade_masterError_engine (consumer_is_engine hq h15 hm) (by decide) _ s⟩

theorem popRing_empty (hh : headEntry q (consumerKey q m) s = none) (ok : Bool) : popRing q m ok s = s := by
  simp only [popRing, hh]

theorem popQ0_empty (hh : headEntry 0 0 s = none) (ok : Bool) : popQ0 ok s = s := by
  simp only [popQ0, hh]

/-- A pop that finds no entry at the consumer's index changes nothing. -/
theorem exec_ringPop_empty (hv : s.clk.vcc = true) (hm : isConsumer q m = true) (hh : headEntry q (consumerKey q m) s = none)
    (ok : Bool) : exec (.ringPop q m ok) s = .next s := by
  by_cases h0 : q = 0
  · subst h0
    rw [consumerKey_of_q0 hm] at hh
    simp [exec, execRingPop, hv, hm, popQ0_empty hh]
  · simp [exec, execRingPop, hv, hm, h0, popRing_empty hh]

end

/-- Settles O40: an index write is accepted exactly within the live entries, and an empty pop falls through. -/
theorem consumerIndexRule : Obligations.ConsumerIndexRule := by
  intro q m c j s hv hm
  refine ⟨fun hs hc hj => ?_, fun hc hj => ?_, exec_ringPop_empty hv hm⟩
  · obtain ⟨t, ht, moved⟩ := consumerIndexWrite_within hv hm hs hc hj
    exact ⟨t, ht, moved.index, moved.p, moved.others, moved.fc, moved.units⟩
  · obtain ⟨t, ht, ⟨rfl, rfl⟩ | ⟨-, made⟩⟩ := consumerIndexWrite_beyond hv hm hc hj
    · exact ⟨_, ht, rfl, unitsKept_refl _, fun _ h15 => absurd rfl h15⟩
    · refine ⟨t, ht, made.cons q, made.units, fun hf _ => ?_⟩
      obtain ⟨hring, hvalid, htype, hmaster, hchecker⟩ := made.capture hf
      exact ⟨hring, hvalid, htype, hmaster, by simpa [isHostRing, or_assoc] using hchecker⟩

end Sys2Proof.Machine

/-! The doorbell of Q0 (R377): what pushing the written slots puts in the ring, when a doorbell is refused, and the statement
on both. -/

namespace Sys2Proof.Machine
open Sys2Proof Sys2Proof.Safety

/-! ### The slots written from PIDX -/

theorem memReadN_length (m : Mem) (n : Nat) : ∀ a, (memReadN m a n).length = n := by
  induction n with
  | zero => intro a; rfl
  | succ n ih => intro a; rw [memReadN, List.length_cons, ih]

/-- The entry that a push makes of the k-th slot from PIDX. -/
def writtenSlot (s : State) (k : Nat) : Entry := ⟨memReadN s.mbox.q0mem (q0Place s k 0) 256, true⟩

/-- Q0's 16 slots divide the 2^16 values of PIDX: after n pushes the first slot is the one that was n places on. -/
theorem q0Place_of_advanced {s t : State} {n : Nat}
    (hp : t.ring[(0 : Fin 16)].p = s.ring[(0 : Fin 16)].p + BitVec.ofNat 16 n) : q0Place t 0 0 = q0Place s n 0 := by
  simp only [q0Place, hp, BitVec.toNat_add, BitVec.toNat_ofNat]
  omega

theorem place_slot {bs : List Byte} (h : bs.length = 256) (r : Ring) :
    place 0 bs r = { r with p := r.p + 1, entries := r.entries ++ [⟨bs, true⟩] } := by
  simp [place, recordEntries, entrySize, cutEntries, h, slice_all bs 256 h]

/-! ### The push -/

/-- From s to t the n slots from PIDX were pushed to Q0: PIDX advanced by n, and the written slots are the host's bytes yet. -/
structure SlotsPushed (n : Nat) (s t : State) : Prop where
  ring : t.ring[(0 : Fin 16)] = { s.ring[(0 : Fin 16)] with
    p := s.ring[(0 : Fin 16)].p + BitVec.ofNat 16 n
    entries := s.ring[(0 : Fin 16)].entries ++ (List.range n).map (writtenSlot s) }
  q0mem : t.mbox.q0mem = s.mbox.q0mem

theorem slotsPushed_zero (s : State) : SlotsPushed 0 s s := ⟨by simp, rfl⟩

theorem pushSlot_ring (b : HostBus) (s : State) : (pushSlot b s).ring[(0 : Fin 16)] = { s.ring[(0 : Fin 16)] with
    p := s.ring[(0 : Fin 16)].p + 1, entries := s.ring[(0 : Fin 16)].entries ++ [writtenSlot s 0] } := by
  simp only [pushSlot, place_slot (memReadN_length _ _ _)]
  exact putRing_self 0 _ _

theorem writtenSlot_of_pushed {n : Nat} {s t : State} (h : SlotsPushed n s t) : writtenSlot t 0 = writtenSlot s n := by
  have hp : t.ring[(0 : Fin 16)].p = s.ring[(0 : Fin 16)].p + BitVec.ofNat 16 n := by rw [h.ring]
  rw [writtenSlot, writtenSlot, h.q0mem, q0Place_of_advanced hp]

theorem slotsPushed_succ (b : HostBus) {n : Nat} {s t : State} (h : SlotsPushed n s t) :
    SlotsPushed (n + 1) s (pushSlot b t) where
  ring := by
    rw [pushSlot_ring, writtenSlot_of_pushed h, h.ring]
    simp [List.range_succ, BitVec.ofNat_add, BitVec.add_assoc]
  q0mem := h.q0mem

/-- Pushing the slots one by one pushes them in their order. -/
theorem slotsPushed_each (b : HostBus) (s : State) : ∀ n, SlotsPushed n s (each (List.range n) (fun _ => pushSlot b) s)
  | 0 => slotsPushed_zero s
  | n + 1 => by
    have step := slotsPushed_succ b (slotsPushed_each b s n)
    simpa only [each, List.range_succ, List.foldl_append, List.foldl_cons, List.foldl_nil] using step

/-! ### The doorbell -/

section
variable {s : State} {n : Nat}

theorem doorbell_zero (b : HostBus) (s : State) : doorbell b 0 s = s := rfl

theorem doorbell_refused (b : HostBus) (h0 : n ≠ 0)
    (h : s.mbox.ready = false ∨ 4 < n ∨ credit 0 s.ring[(0 : Fin 16)] < n) : doorbell b n s = refuseDoorbell s := by
  have refused : (!s.mbox.ready || 4 < n || credit 0 s.ring[(0 : Fin 16)] < n) = true := by simpa [or_assoc] using h
  rw [doorbell, if_neg h0, if_pos refused]

theorem slotsPushed_doorbell (b : HostBus) (h0 : n ≠ 0) (hr : s.mbox.ready = true) (h4 : n ≤ 4)
    (hc : n ≤ credit 0 s.ring[(0 : Fin 16)]) : SlotsPushed n s (doorbell b n s) := by
  have taken : ¬ (!s.mbox.ready || 4 < n || credit 0 s.ring[(0 : Fin 16)] < n) = true := by
    simpa [hr, h4] using hc
  rw [doorbell, if_neg h0, if_neg taken]
  obtain ⟨ring, q0mem⟩ := slotsPushed_each b { s with stby := { s.stby with since := none } } n
  exact ⟨ring, q0mem⟩

theorem exec_q0Doorbell (b : HostBus) (n : BitVec 3) (hl : s.host.released = true) :
    exec (.q0Doorbell b n) s = .next (doorbell b n.toNat s) := by
  simp [exec, execQ0Doorbell, whenLive, hl]

end

/-- Settles O23: a doorbell within the credit pushes its slots in their order, and any other is refused and counted. -/
theorem doorbellRule : Obligations.DoorbellRule := by
  intro s b n hl
  have ne (h0 : n ≠ 0) : n.toNat ≠ 0 := fun h => h0 (BitVec.eq_of_toNat_eq h)
  refine ⟨fun h0 => ?_, fun h0 hr h4 hc => ?_, fun h0 h => ?_⟩
  · rw [exec_q0Doorbell b n hl, h0]
    exact congrArg _ (doorbell_zero b s)
  · have pushed := slotsPushed_doorbell b (ne h0) hr h4 hc
    have ring : (doorbell b n.toNat s).ring[0] = _ := pushed.ring
    refine ⟨_, exec_q0Doorbell b n hl, ?_⟩
    beta_reduce
    rw [ring]
    exact ⟨rfl, rfl, rfl, rfl, pushed.q0mem⟩
  · refine ⟨_, exec_q0Doorbell b n hl, ?_⟩
    rw [doorbell_refused b (ne h0) h]
    exact ⟨putRing_self 0 _ s, rfl⟩

end Sys2Proof.Machine
